-- ==== Sys2Proof/Word.lean ====
section
/-! DEFINITION. The words, positions and small indexes of the FWR-436 (manual, Conventions 3.1 to 3.4): bit vectors
where the manual treats a value as bits or as a number that wraps, and the two small index types, lanes and ports, with
one container for each. -/

namespace Sys2Proof

/-- A nibble: what one clock pulse of a service port carries (R166). -/
abbrev Nibble := BitVec 4

/-- A byte of a service port (R166). -/
abbrev Byte := BitVec 8

/-- A scan link word (R1). -/
abbrev Word32 := BitVec 32

/-- A position along the film, counted modulo 2^40 (Conventions 3.2). -/
abbrev Position := BitVec 40

/-- A stored sample: 24-bit two's complement (Conventions 3.3). -/
abbrev Sample := BitVec 24

/-- An event set or event mask: bit n is event n of the table of R191. -/
abbrev EventSet := BitVec 11

/-- The four lanes (Conventions 3.3). -/
inductive Lane where
  | lane0 | lane1 | lane2 | lane3
  deriving DecidableEq, Repr

/-- The three service ports (chapter 10). -/
inductive Port where
  | port0 | port1 | port2
  deriving DecidableEq, Repr

/-- The lanes in ascending lane number. -/
def Lane.all : List Lane := [.lane0, .lane1, .lane2, .lane3]

/-- The lane number. -/
def Lane.toNat : Lane → Nat
  | .lane0 => 0
  | .lane1 => 1
  | .lane2 => 2
  | .lane3 => 3

/-- The lane a lane code names; a code above 3 names none (R161, R172). -/
def Lane.ofNat? : Nat → Option Lane
  | 0 => some .lane0
  | 1 => some .lane1
  | 2 => some .lane2
  | 3 => some .lane3
  | _ => none

/-- The ports in ascending port number. -/
def Port.all : List Port := [.port0, .port1, .port2]

/-- The port number. -/
def Port.toNat : Port → Nat
  | .port0 => 0
  | .port1 => 1
  | .port2 => 2

/-- The port a port number names; a number above 2 names none (R173). -/
def Port.ofNat? : Nat → Option Port
  | 0 => some .port0
  | 1 => some .port1
  | 2 => some .port2
  | _ => none

/-- One value for each lane. -/
structure PerLane (α : Type) where
  lane0 : α
  lane1 : α
  lane2 : α
  lane3 : α
  deriving DecidableEq, Repr

/-- One value for each port. -/
structure PerPort (α : Type) where
  port0 : α
  port1 : α
  port2 : α
  deriving DecidableEq, Repr

/-- The value of one lane. -/
def PerLane.get {α : Type} (q : PerLane α) : Lane → α
  | .lane0 => q.lane0
  | .lane1 => q.lane1
  | .lane2 => q.lane2
  | .lane3 => q.lane3

/-- The value of one lane replaced. -/
def PerLane.set {α : Type} (q : PerLane α) (l : Lane) (v : α) : PerLane α :=
  match l with
  | .lane0 => { q with lane0 := v }
  | .lane1 => { q with lane1 := v }
  | .lane2 => { q with lane2 := v }
  | .lane3 => { q with lane3 := v }

/-- Every lane's value changed, each knowing its lane. -/
def PerLane.mapIdx {α β : Type} (q : PerLane α) (f : Lane → α → β) : PerLane β :=
  ⟨f .lane0 q.lane0, f .lane1 q.lane1, f .lane2 q.lane2, f .lane3 q.lane3⟩

/-- The same value in every lane. -/
def PerLane.same {α : Type} (v : α) : PerLane α := ⟨v, v, v, v⟩

/-- The value of one port. -/
def PerPort.get {α : Type} (q : PerPort α) : Port → α
  | .port0 => q.port0
  | .port1 => q.port1
  | .port2 => q.port2

/-- The value of one port replaced. -/
def PerPort.set {α : Type} (q : PerPort α) (p : Port) (v : α) : PerPort α :=
  match p with
  | .port0 => { q with port0 := v }
  | .port1 => { q with port1 := v }
  | .port2 => { q with port2 := v }

/-- Every port's value changed alike. -/
def PerPort.map {α β : Type} (q : PerPort α) (f : α → β) : PerPort β :=
  ⟨f q.port0, f q.port1, f q.port2⟩

/-- The same value in every port. -/
def PerPort.same {α : Type} (v : α) : PerPort α := ⟨v, v, v⟩

end Sys2Proof
end

