-- ==== Sys2Proof/Config.lean ====
section
/-! DEFINITION. What the part fixes once: the counts and limits of the capability page (R179, R196) and the value that
an unlisted cell of the window memory reads as (log entry 2). The spec leaves no result of a command open, so there is
no free value here (INVENTORY.md, What the manual leaves open). -/

namespace Sys2Proof.Config

/-- Transfers the scan FIFO holds (R2). -/
def fifoDepth : Nat := 128

/-- READY is high while the scan FIFO holds this many entries or fewer (R3). -/
def readyLevel : Nat := 96

/-- Slots of the block window (R35). -/
def slotCount : Nat := 64

/-- Positions of a whole block (Conventions 3.2). -/
def blockSize : Nat := 2048

/-- Blocks a pass may number (R17). -/
def maxBlocks : Nat := 2 ^ 28

/-- Entries the Defect Catalogue holds (R63). -/
def catalogueDepth : Nat := 2048

/-- The count whose reaching raises CATHIGH (R63). -/
def catalogueHigh : Nat := 1920

/-- The greatest entry number (R56). -/
def maxEntryNumber : Nat := 65535

/-- Tracker events a block record holds (R32). -/
def maxEvents : Nat := 17

/-- The largest packet count (R1). -/
def maxPacket : Nat := 1024

/-- The largest gap (R13). -/
def maxGap : Nat := 2048

/-- The largest review hold (R48). -/
def maxHold : Nat := 48

/-- The review hold after pin reset and RSTP (R53). -/
def defaultHold : Nat := 16

/-- The largest learn, in blocks (R127). -/
def maxLearn : Nat := 64

/-- The largest unlisted count (R38). -/
def maxUnlisted : Nat := 255

/-- The length of a drain record header (R183, R195). -/
def drainHeaderBytes : Nat := 46

/-- The largest magnitude of a mended, hum-stage or restored value (Conventions 3.3). -/
def fullScale : Int := 8388607

/-- The void value (Conventions 3.3). -/
def voidValue : Sample := 0x800000#24

/-- What a cell of the window memory that nothing has written reads as. DESIGN CHOICE (log entry 2): the spec gives the
window memory no contents at power-on, and by R36 nothing reads such a cell. -/
def unwrittenSample : Sample := 0#24

end Sys2Proof.Config
end

