-- ==== Sys2Proof/Syntax.lean ====
section
/-! DEFINITION. The commands of the FWR-436: one constructor of Instr for each row of spec/opcode_table.json, with the
operands the spec gives the row. A request row carries a port and the part of a frame that reaches the part (R166, R168),
so that frames of different ports may overlap as R166 lets them. -/

namespace Sys2Proof

/-- The tag of a scan link transfer (R1). -/
inductive Tag where
  | data | head | mark | close
  deriving DecidableEq, Repr

/-- The arguments of OPEN, in the byte widths of R193. -/
structure OpenArgs where
  laneMask   : Byte
  format     : Byte
  start      : Position
  perfMin    : BitVec 16
  perfMax    : BitVec 16
  spliceSpan : Byte
  deriving DecidableEq, Repr

/-- The arguments of LPUT (R193). -/
structure LputArgs where
  lane      : Byte
  parameter : Byte
  value     : Word32
  deriving DecidableEq, Repr

/-- The arguments of LEARN (R193). -/
structure LearnArgs where
  lane   : Byte
  blocks : Byte
  deriving DecidableEq, Repr

/-- The arguments of LGET (R193). -/
structure LgetArgs where
  lane      : Byte
  parameter : Byte
  deriving DecidableEq, Repr

/-- The arguments of CDEC (R193). -/
structure CdecArgs where
  number   : BitVec 16
  decision : Byte
  deriving DecidableEq, Repr

/-- The arguments of GRANT (R193). -/
structure GrantArgs where
  resource : Byte
  port     : Byte
  deriving DecidableEq, Repr

/-- The arguments of CSEEK (R193). -/
structure CseekArgs where
  mode      : Byte
  direction : Byte
  number    : BitVec 16
  position  : Position
  deriving DecidableEq, Repr

/-- The arguments of PROBE (R193). -/
structure ProbeArgs where
  code : Byte
  lane : Byte
  deriving DecidableEq, Repr

/-- What a frame that ends early carries: whole bytes, and perhaps a first nibble without its second (R166, R168). -/
structure ShortArgs where
  bytes : List Byte
  odd   : Option Nibble
  deriving DecidableEq, Repr

/-- The part of a frame that a request command carries. `whole` is a frame from the fall of select to its rise: the code
and arguments are shifted in, the reply is clocked for `pulses` nibbles, and select rises. The other three are its parts,
so that commands of other ports, of the scan link and of the lane engines may come between them: `receive` is the fall of
select with the code and all arguments, `reply` is `pulses` further clock pulses, and `finish` is the rise of select. -/
inductive Frame (α : Type) where
  | whole   (args : α) (pulses : Nat)
  | receive (args : α)
  | reply   (pulses : Nat)
  | finish
  deriving DecidableEq, Repr

/-- How much of the work in flight a completion command carries: `part n` is the next `n` elementary steps of the work
(one position of one stage each) with no completion, and `rest` is all that remains and the completion (R41, R42). -/
inductive Progress where
  | part (steps : Nat)
  | rest
  deriving DecidableEq, Repr

/-- The commands, in the order of spec/opcode_table.json. -/
inductive Instr where
  | openPass           (p : Port) (f : Frame OpenArgs)
  | closePass          (p : Port) (f : Frame Unit)
  | abort              (p : Port) (f : Frame Unit)
  | splice             (p : Port) (f : Frame Position)
  | lput               (p : Port) (f : Frame LputArgs)
  | learn              (p : Port) (f : Frame LearnArgs)
  | lget               (p : Port) (f : Frame LgetArgs)
  | hold               (p : Port) (f : Frame Byte)
  | rls                (p : Port) (f : Frame Word32)
  | cdec               (p : Port) (f : Frame CdecArgs)
  | dnext              (p : Port) (f : Frame Byte)
  | dack               (p : Port) (f : Frame Word32)
  | grant              (p : Port) (f : Frame GrantArgs)
  | rstp               (p : Port) (f : Frame Unit)
  | rights             (p : Port) (f : Frame Unit)
  | cseek              (p : Port) (f : Frame CseekArgs)
  | cwalk              (p : Port) (f : Frame Unit)
  | events             (p : Port) (f : Frame Unit)
  | evclr              (p : Port) (f : Frame (BitVec 16))
  | evmask             (p : Port) (f : Frame (BitVec 16))
  | stat               (p : Port) (f : Frame Unit)
  | caps               (p : Port) (f : Frame Byte)
  | probe              (p : Port) (f : Frame ProbeArgs)
  | unknownCode        (p : Port) (f : Frame Byte)
  | short              (p : Port) (f : Frame ShortArgs)
  | pinReset           (chief : BitVec 2)
  | transfer           (tag : Tag) (word : Word32)
  | headTaken
  | dataTaken
  | markTaken
  | endTaken
  | runOutEnd
  | trackerTimeout     (q : Position)
  | liveRenderTake     (l : Lane)
  | reRenderTake       (l : Lane)
  | clickListing       (l : Lane)
  | voidListing        (l : Lane)
  | liveRenderComplete (l : Lane) (w : Progress)
  | reRenderComplete   (l : Lane) (w : Progress)
  | selectPulse        (p : Port)
  deriving DecidableEq, Repr

end Sys2Proof
end

