-- ==== Sys2Proof/Decode.lean ====
section
/-! DEFINITION. The words of the commands: the request codes and argument bytes of a service frame (R193) in both
directions, the fields of a scan link word (R192), and decodeTableWord. Fields of more than one byte are most significant
byte first (R191). -/

namespace Sys2Proof

/-- The twenty-three requests of R167. -/
inductive Request where
  | openPass | closePass | abort | splice | lput | learn | lget | hold | rls | cdec | dnext | dack | grant | rstp
  | rights | cseek | cwalk | events | evclr | evmask | stat | caps | probe
  deriving DecidableEq, Repr

/-- The request code of each request (R193). -/
def Request.code : Request → Byte
  | .openPass => 0x01#8
  | .closePass => 0x02#8
  | .abort => 0x03#8
  | .splice => 0x04#8
  | .lput => 0x10#8
  | .learn => 0x11#8
  | .lget => 0x12#8
  | .hold => 0x20#8
  | .rls => 0x21#8
  | .cdec => 0x22#8
  | .dnext => 0x30#8
  | .dack => 0x31#8
  | .grant => 0x40#8
  | .rstp => 0x41#8
  | .rights => 0x42#8
  | .cseek => 0x50#8
  | .cwalk => 0x51#8
  | .events => 0x60#8
  | .evclr => 0x61#8
  | .evmask => 0x62#8
  | .stat => 0x70#8
  | .caps => 0x71#8
  | .probe => 0x72#8

/-- The requests, in the order of R193. -/
def Request.all : List Request :=
  [.openPass, .closePass, .abort, .splice, .lput, .learn, .lget, .hold, .rls, .cdec, .dnext, .dack, .grant, .rstp,
   .rights, .cseek, .cwalk, .events, .evclr, .evmask, .stat, .caps, .probe]

/-- The request a code byte names, if any (R167, R193). -/
def Request.ofCode (c : Byte) : Option Request :=
  Request.all.find? (fun r => r.code == c)

/-- How many argument bytes follow the code (R193). -/
def Request.argCount : Request → Nat
  | .openPass => 12
  | .splice => 5
  | .lput => 6
  | .learn | .lget | .grant | .evclr | .evmask | .probe => 2
  | .hold | .dnext | .caps => 1
  | .rls | .dack => 4
  | .cdec => 3
  | .cseek => 9
  | .closePass | .abort | .rstp | .rights | .cwalk | .events | .stat => 0

/-- The two bytes of a 16-bit field, most significant first (R191). -/
def bytes2 (v : BitVec 16) : List Byte := [v.extractLsb' 8 8, v.extractLsb' 0 8]

/-- The three bytes of a 24-bit field. -/
def bytes3 (v : BitVec 24) : List Byte := [v.extractLsb' 16 8, v.extractLsb' 8 8, v.extractLsb' 0 8]

/-- The four bytes of a 32-bit field. -/
def bytes4 (v : Word32) : List Byte :=
  [v.extractLsb' 24 8, v.extractLsb' 16 8, v.extractLsb' 8 8, v.extractLsb' 0 8]

/-- The five bytes of a position. -/
def bytes5 (v : Position) : List Byte :=
  [v.extractLsb' 32 8, v.extractLsb' 24 8, v.extractLsb' 16 8, v.extractLsb' 8 8, v.extractLsb' 0 8]

/-- The argument bytes of OPEN (R193). -/
def OpenArgs.toBytes (a : OpenArgs) : List Byte :=
  [a.laneMask, a.format] ++ bytes5 a.start ++ bytes2 a.perfMin ++ bytes2 a.perfMax ++ [a.spliceSpan]

/-- The arguments that twelve bytes of an OPEN spell. -/
def OpenArgs.ofBytes : List Byte → Option OpenArgs
  | [m, f, s4, s3, s2, s1, s0, n1, n0, x1, x0, w] =>
    some ⟨m, f, s4 ++ s3 ++ s2 ++ s1 ++ s0, n1 ++ n0, x1 ++ x0, w⟩
  | _ => none

/-- No argument bytes. -/
def noArgs (_ : Unit) : List Byte := []

/-- No bytes spell no arguments. -/
def noArgsOf : List Byte → Option Unit
  | [] => some ()
  | _ => none

/-- One argument byte. -/
def byteArg (b : Byte) : List Byte := [b]

/-- The argument that one byte spells. -/
def byteArgOf : List Byte → Option Byte
  | [b] => some b
  | _ => none

/-- The argument that two bytes spell. -/
def halfArgOf : List Byte → Option (BitVec 16)
  | [b1, b0] => some (b1 ++ b0)
  | _ => none

/-- The argument that four bytes spell. -/
def wordArgOf : List Byte → Option Word32
  | [b3, b2, b1, b0] => some (b3 ++ b2 ++ b1 ++ b0)
  | _ => none

/-- The position that five bytes spell. -/
def positionArgOf : List Byte → Option Position
  | [b4, b3, b2, b1, b0] => some (b4 ++ b3 ++ b2 ++ b1 ++ b0)
  | _ => none

/-- The argument bytes of LPUT (R193). -/
def LputArgs.toBytes (a : LputArgs) : List Byte := [a.lane, a.parameter] ++ bytes4 a.value

/-- The arguments that six bytes of an LPUT spell. -/
def LputArgs.ofBytes : List Byte → Option LputArgs
  | [l, p, v3, v2, v1, v0] => some ⟨l, p, v3 ++ v2 ++ v1 ++ v0⟩
  | _ => none

/-- The argument bytes of LEARN (R193). -/
def LearnArgs.toBytes (a : LearnArgs) : List Byte := [a.lane, a.blocks]

/-- The arguments that two bytes of a LEARN spell. -/
def LearnArgs.ofBytes : List Byte → Option LearnArgs
  | [l, n] => some ⟨l, n⟩
  | _ => none

/-- The argument bytes of LGET (R193). -/
def LgetArgs.toBytes (a : LgetArgs) : List Byte := [a.lane, a.parameter]

/-- The arguments that two bytes of an LGET spell. -/
def LgetArgs.ofBytes : List Byte → Option LgetArgs
  | [l, p] => some ⟨l, p⟩
  | _ => none

/-- The argument bytes of CDEC (R193). -/
def CdecArgs.toBytes (a : CdecArgs) : List Byte := bytes2 a.number ++ [a.decision]

/-- The arguments that three bytes of a CDEC spell. -/
def CdecArgs.ofBytes : List Byte → Option CdecArgs
  | [n1, n0, d] => some ⟨n1 ++ n0, d⟩
  | _ => none

/-- The argument bytes of GRANT (R193). -/
def GrantArgs.toBytes (a : GrantArgs) : List Byte := [a.resource, a.port]

/-- The arguments that two bytes of a GRANT spell. -/
def GrantArgs.ofBytes : List Byte → Option GrantArgs
  | [r, p] => some ⟨r, p⟩
  | _ => none

/-- The argument bytes of CSEEK (R193). -/
def CseekArgs.toBytes (a : CseekArgs) : List Byte := [a.mode, a.direction] ++ bytes2 a.number ++ bytes5 a.position

/-- The arguments that nine bytes of a CSEEK spell. -/
def CseekArgs.ofBytes : List Byte → Option CseekArgs
  | [m, d, n1, n0, p4, p3, p2, p1, p0] => some ⟨m, d, n1 ++ n0, p4 ++ p3 ++ p2 ++ p1 ++ p0⟩
  | _ => none

/-- The argument bytes of PROBE (R193). -/
def ProbeArgs.toBytes (a : ProbeArgs) : List Byte := [a.code, a.lane]

/-- The arguments that two bytes of a PROBE spell. -/
def ProbeArgs.ofBytes : List Byte → Option ProbeArgs
  | [c, l] => some ⟨c, l⟩
  | _ => none

/-- What the bytes received so far make of a frame: still short of its code or arguments, complete for a request, or begun
with an unknown code (R166, R167, R168). -/
inductive Received where
  | incomplete
  | complete (r : Request)
  | unknown
  deriving DecidableEq, Repr

/-- The reading of the received bytes of a frame. -/
def classify : List Byte → Received
  | [] => .incomplete
  | c :: args =>
    match Request.ofCode c with
    | none => .unknown
    | some r => if args.length < r.argCount then .incomplete else .complete r

/-- The tag that a 2-bit tag code stands for (R192). -/
def Tag.ofCode (c : BitVec 2) : Tag :=
  if c = 0#2 then .data else if c = 1#2 then .head else if c = 2#2 then .mark else .close

/-- The lane mask field of word A of a header (R192). -/
def headMask (w : Word32) : Byte := w.extractLsb' 0 8

/-- The count field of word A of a header (R192). -/
def headCount (w : Word32) : Nat := (w.extractLsb' 16 16).toNat

/-- The command that a word spells by the table's bits: no row of spec/opcode_table.json gives any bits, so none. -/
def decodeTableWord (_nbits _w : Nat) : Option Instr := none

end Sys2Proof
end

