-- ==== Sys2Proof/Machine/State.lean ====
section
/-! DEFINITION. Everything the manual gives the part to hold, as plain data, and the state after pin reset. Each structure
names the rule or the table that lists its fields. Three values that the manual names in two blocks are stored once: the
pass lane set, width and byte order (Scan Input and Pass Controller), the start position (Pass Controller) with the pass
start (Defect Catalogue), and the interval limits (Pass Controller) taken by the Perforation Tracker. -/

namespace Sys2Proof.Machine

/-! ## The scan link (chapter 1) -/

/-- The pass state (R151). -/
inductive PassState where
  | idle | running | closing | ended
  deriving DecidableEq, Repr

/-- The width of a link sample: 12, 16, 20 or 24 bits (Conventions 3.3). -/
inductive Width where
  | w12 | w16 | w20 | w24
  deriving DecidableEq, Repr

/-- The order in which the bytes of a DATA word enter the bit stream (R11). -/
inductive ByteOrder where
  | highFirst | lowFirst
  deriving DecidableEq, Repr

/-- The packet state of the assembler (section 1.2). -/
inductive PacketState where
  | none | header | opened | damaged | discard
  deriving DecidableEq, Repr

/-- One entry of the scan FIFO: a tag, a word and a loss mark (R2). -/
structure FifoEntry where
  tag  : Tag
  word : Word32
  loss : Bool
  deriving DecidableEq, Repr

/-- The packet context, present in OPEN and DAMAGED (chapter 1, table of state). -/
structure PacketContext where
  first         : Position
  count         : Nat
  wordsNeeded   : Nat
  wordsReceived : Nat
  partialBits   : List Bool
  lanesWritten  : Nat
  deriving DecidableEq, Repr

/-- The stall: whether the assembler waits for a free slot, and whether WINFULL has been raised for this stall (R18). -/
structure Stall where
  waiting : Bool
  winfull : Bool
  deriving DecidableEq, Repr

/-- The entry the assembler was acting on when a stall began, with the number of its bits already unpacked (R18). -/
structure SuspendedEntry where
  entry        : FifoEntry
  bitsUnpacked : Nat
  deriving DecidableEq, Repr

/-- Scan Input (chapter 1, table of state). `ready` is the READY output (R3). -/
structure ScanInput where
  fifo        : List FifoEntry
  ready       : Bool
  packet      : PacketState
  heldWord    : Option Word32
  context     : Option PacketContext
  pendingFill : Nat
  next        : Position
  stall       : Stall
  suspended   : Option SuspendedEntry
  inputEnded  : Bool
  deriving DecidableEq, Repr

/-! ## The Perforation Tracker (chapter 2) -/

/-- The lock state (section 2.2). -/
inductive LockState where
  | unlocked | locked | holdover
  deriving DecidableEq, Repr

/-- A lock state with the S8 in force, absent while UNLOCKED. -/
structure LockPoint where
  lock : LockState
  s8   : Option Nat
  deriving DecidableEq, Repr

/-- What a tracker event says; ACCEPT and LOCK carry an S8 (section 2.3). -/
inductive TrackerEventKind where
  | accept (s8 : Nat)
  | lock (s8 : Nat)
  | holdover
  deriving DecidableEq, Repr

/-- A tracker event of a block record, at an offset of the block (section 2.3). -/
structure TrackerEvent where
  offset : Nat
  kind   : TrackerEventKind
  deriving DecidableEq, Repr

/-- An event published at a position of a block not yet secured (R30). -/
structure HeldEvent where
  position : Position
  kind     : TrackerEventKind
  deriving DecidableEq, Repr

/-- The Perforation Tracker (chapter 2, table of state). -/
structure Tracker where
  point         : LockPoint
  lastMark      : Option Position
  slipPosition  : Option Position
  history       : List Nat
  validRun      : Nat
  rejectRun     : Nat
  lastPublished : Option Position
  heldEvents    : List HeldEvent
  heldStart     : Option LockPoint
  deriving DecidableEq, Repr

/-! ## The Block Window (chapter 3) -/

/-- The state of a block in a slot; a FREE slot holds none (section 3.3). -/
inductive BlockState where
  | filling | full | held | released
  deriving DecidableEq, Repr

/-- The render state of a lane record (R38). -/
inductive RenderState where
  | pending | working | done | stale
  deriving DecidableEq, Repr

/-- A hum coefficient pair, signed 32-bit each (R38, R100). -/
structure Coefficient where
  c : BitVec 32
  s : BitVec 32
  deriving DecidableEq, Repr

/-- The snapshot at block start (R38): both phases, twelve coefficient slots, the low band and the envelope. -/
structure Snapshot where
  phaseA : BitVec 32
  phaseB : BitVec 32
  slots  : List Coefficient
  lp     : BitVec 24
  env    : BitVec 25
  deriving DecidableEq, Repr

/-- A lane record (R38). -/
structure LaneRecord where
  render     : RenderState
  dirty      : Bool
  learnFlag  : Bool
  unlisted   : Nat
  inputPeak  : Option Nat
  outputPeak : Nat
  snapshot   : Snapshot
  deriving DecidableEq, Repr

/-- A block record with its slot (R35, R37). A lane outside the active lane set has no lane record. -/
structure Block where
  slot     : Nat
  number   : Nat
  first    : Position
  fill     : Nat
  state    : BlockState
  filmGap  : Bool
  filmSlip : Bool
  filmLink : Bool
  start    : LockPoint
  events   : List TrackerEvent
  lanes    : PerLane (Option LaneRecord)
  deriving DecidableEq, Repr

/-- The three arrays of the window memory (R36). -/
inductive SampleArray where
  | original | mended | restored
  deriving DecidableEq, Repr

/-- One 24-bit value of the window memory at its address. -/
abbrev SampleCell := Nat × Sample

/-- The window memory (R36): the cells that do not read as the unwritten value, addresses strictly rising. -/
abbrev WindowMemory := List SampleCell

/-- The Block Window (chapter 3, table of state): the blocks in the window in ascending block number (a slot that no
block names is FREE), the window memory, the block counter, the final block, the review hold and the release mark. -/
structure Window where
  blocks      : List Block
  memory      : WindowMemory
  counter     : Nat
  finalBlock  : Option Nat
  reviewHold  : Nat
  releaseMark : Option Nat
  deriving DecidableEq, Repr

/-! ## The Defect Catalogue (chapter 4) -/

/-- The kinds of catalogue entry (R55). -/
inductive EntryKind where
  | click | void | gap | splice | slip
  deriving DecidableEq, Repr

/-- The repair decision of an entry (R55). -/
inductive Decision where
  | repair | pass | hold
  deriving DecidableEq, Repr

/-- Who decided (R55). -/
inductive DecidedBy where
  | default | review
  deriving DecidableEq, Repr

/-- The reported position of a SLIP: the expected and the reported low 32 bits (R15). -/
structure SlipReport where
  expected : Word32
  reported : Word32
  deriving DecidableEq, Repr

/-- A catalogue entry (R55). -/
structure Entry where
  number    : Nat
  kind      : EntryKind
  lane      : Option Lane
  start     : Position
  span      : Option Nat
  peak      : Option Nat
  decision  : Option Decision
  decidedBy : DecidedBy
  reported  : Option SlipReport
  fixed     : Bool
  deriving DecidableEq, Repr

/-- The direction of a cursor (R69). -/
inductive Direction where
  | forward | backward
  deriving DecidableEq, Repr

/-- A cursor: the number of a present entry, or END (R69). -/
structure Cursor where
  target    : Option Nat
  direction : Direction
  deriving DecidableEq, Repr

/-- The Defect Catalogue (chapter 4, table of state). The pass start is the start position of PassControl. -/
structure Catalogue where
  entries : List Entry
  counter : Nat
  cursors : PerPort Cursor
  deriving DecidableEq, Repr

/-! ## The Lane Engines (chapters 5 to 8) -/

/-- The sixteen lane settings P0 to P15 (R160). -/
structure LaneSettings where
  clickRatio : Nat
  tmin       : Nat
  guardLen   : Nat
  maxspan    : Nat
  longPolicy : Nat
  rhoA       : Nat
  harmonicsA : Nat
  rhoB       : Nat
  harmonicsB : Nat
  adaptShift : Nat
  crossover  : Nat
  attack     : Nat
  release    : Nat
  openRatio  : Nat
  gmin       : Nat
  floor      : Nat
  deriving DecidableEq, Repr

/-- The detector state with the span that is forming (chapter 5, table of state). -/
inductive Detecting where
  | idle
  | click (start last : Position) (peak guardCount : Nat)
  | void (start : Position) (length : Nat)
  deriving DecidableEq, Repr

/-- A span applied without a catalogue entry and not yet fully mended (R89). -/
structure CarriedSpan where
  kind     : EntryKind
  start    : Position
  span     : Nat
  decision : Decision
  deriving DecidableEq, Repr

/-- The detection and mend state of a lane engine (chapter 5, table of state). -/
structure Detector where
  state    : Detecting
  next     : Position
  envelope : Nat
  carry    : List CarriedSpan
  deriving DecidableEq, Repr

/-- Both phase increments (R101). -/
structure Increments where
  a : Nat
  b : Nat
  deriving DecidableEq, Repr

/-- The hum state of an engine at work (chapter 6, table of state). -/
structure HumState where
  phaseA : BitVec 32
  phaseB : BitVec 32
  inc    : Option Increments
  slots  : List Coefficient
  point  : LockPoint
  deriving DecidableEq, Repr

/-- The hiss state of an engine at work (chapter 7, table of state). -/
structure HissState where
  lp        : BitVec 24
  env       : BitVec 25
  threshold : Nat
  learnFlag : Bool
  deriving DecidableEq, Repr

/-- What names a span within one render: its kind and start. -/
structure SpanKey where
  kind  : EntryKind
  start : Position
  deriving DecidableEq, Repr

/-- The anchors a span serves with for the rest of a render (R93, R136). -/
structure Anchors where
  left  : Option Sample
  right : Option Sample
  deriving DecidableEq, Repr

/-- The anchors read so far in a render, each with its span. -/
structure SpanAnchors where
  key     : SpanKey
  anchors : Anchors
  deriving DecidableEq, Repr

/-- The stage of a render in flight, with the offset of its next position: detection (R76), mend (R91, R135), hum and hiss
position by position (R105, R118), or all positions done. -/
inductive WorkStage where
  | detect
  | mend (offset : Nat)
  | sound (offset : Nat)
  | finished
  deriving DecidableEq, Repr

/-- A render in flight: the settings taken with the block (R41, R163), the stage, the anchors read in this render, and the
hum and hiss state, absent before the hum stage begins. -/
structure Flight where
  settings : LaneSettings
  stage    : WorkStage
  anchors  : List SpanAnchors
  hum      : Option HumState
  hiss     : Option HissState
  deriving DecidableEq, Repr

/-- The current work of a lane engine (chapter 3). -/
inductive Work where
  | none
  | live (block : Nat) (flight : Flight)
  | reRender (block : Nat) (flight : Flight)
  deriving DecidableEq, Repr

/-- The learn state (chapter 7). -/
inductive LearnState where
  | idle | active | ending
  deriving DecidableEq, Repr

/-- The learn of a lane engine (chapter 7, table of state). -/
structure Learn where
  state     : LearnState
  remaining : Nat
  sum       : Nat
  count     : Nat
  counted   : Option Nat
  deriving DecidableEq, Repr

/-- A lane engine: settings, detector, current work and learn. -/
structure LaneEngine where
  settings : LaneSettings
  detector : Detector
  work     : Work
  learn    : Learn
  deriving DecidableEq, Repr

/-! ## The Pass Controller (chapter 9) -/

/-- The Pass Controller (chapter 9, table of state). -/
structure PassControl where
  state       : PassState
  laneMask    : BitVec 4
  width       : Width
  byteOrder   : ByteOrder
  start       : Position
  perfMin     : Nat
  perfMax     : Nat
  spliceSpan  : Nat
  runOutEnded : Bool
  deriving DecidableEq, Repr

/-! ## The Port Hub (chapters 10 and 11) -/

/-- The frame state of a port (R166). -/
inductive FrameState where
  | deselected | receiving | replying
  deriving DecidableEq, Repr

/-- The twelve result codes (section 10.4). -/
inductive Result where
  | done | clamped | denied | state | arg | late | noent | conflict | forced | full | short | unknown
  deriving DecidableEq, Repr

/-- The block a drain read is bound to: not yet chosen, NONE, or a block number (R182). -/
inductive Bound where
  | unchosen
  | nothing
  | block (number : Nat)
  deriving DecidableEq, Repr

/-- The drain read of a DNEXT frame in REPLYING (chapter 11, table). `length` is the model's own field: the length of the
record bound, up to which bytes shifted counts, also once the read is cut and its block has left the window (log entry 24). -/
structure DrainRead where
  selector : Nat
  bound    : Bound
  length   : Nat
  shifted  : Nat
  cut      : Bool
  deriving DecidableEq, Repr

/-- A service port (chapter 10, table of state), with the reply in progress: how many nibbles it has driven, the byte being
shifted, the bytes left of the item being shifted (R170), the entry a CWALK item copies (R71), the result of a read's check
(R170) and the drain read. `attention` is the attention output (R176). `driven` is the model's own field: every nibble that
the part has driven in the port's present or last frame, oldest first. -/
structure PortState where
  frame      : FrameState
  received   : List Byte
  odd        : Option Nibble
  lastResult : Result
  events     : EventSet
  mask       : EventSet
  attention  : Bool
  pulses     : Nat
  byte       : Byte
  item       : List Byte
  walked     : Option Entry
  verdict    : Result
  drain      : Option DrainRead
  driven     : List Nibble
  deriving DecidableEq, Repr

/-- The eight resources of the rights table (section 10.2). -/
inductive Resource where
  | pass
  | lane (l : Lane)
  | review
  | drain
  | chief
  deriving DecidableEq, Repr

/-- The rights table: the owner port of each resource (R171). -/
structure Rights where
  pass   : Port
  lanes  : PerLane Port
  review : Port
  drain  : Port
  chief  : Port
  deriving DecidableEq, Repr

/-! ## The part -/

/-- The whole part, and the queue of the commands that are waiting (first in, first out). -/
structure State where
  pending   : List Instr
  pass      : PassControl
  scan      : ScanInput
  tracker   : Tracker
  window    : Window
  catalogue : Catalogue
  engines   : PerLane LaneEngine
  ports     : PerPort PortState
  rights    : Rights
  deriving DecidableEq, Repr

/-- The reasons the part stops with a fault: none. The manual gives every command its effect in every state, so no
meaning faults (safe: nothing is stopped that the part would run). -/
inductive Fault where
  deriving DecidableEq, Repr

/-- The reasons the model refuses a command. -/
inductive Refusal where
  /-- The command has no meaning in the model: raised by a refused arm of exec. Safe. No arm is refused. -/
  | notModelled (mnemonic : String)
  deriving DecidableEq, Repr

/-- The all-zero snapshot (R38). -/
def Snapshot.zero : Snapshot :=
  { phaseA := 0#32, phaseB := 0#32, slots := List.replicate 12 ⟨0#32, 0#32⟩, lp := 0#24, env := 0#25 }

/-- The defaults of the lane settings (R160). -/
def LaneSettings.defaults : LaneSettings :=
  { clickRatio := 96, tmin := 256, guardLen := 3, maxspan := 16, longPolicy := 0
    rhoA := 4096, harmonicsA := 4, rhoB := 2560, harmonicsB := 0, adaptShift := 14
    crossover := 3, attack := 2, release := 9, openRatio := 48, gmin := 8192, floor := 0 }

/-- No stall. -/
def Stall.clear : Stall := { waiting := false, winfull := false }

/-- Scan Input after pin reset (R22). -/
def ScanInput.reset : ScanInput :=
  { fifo := [], ready := false, packet := .none, heldWord := none, context := none, pendingFill := 0, next := 0#40
    stall := Stall.clear, suspended := none, inputEnded := false }

/-- The tracker after every kind of reset and at OPEN (R34). -/
def Tracker.reset : Tracker :=
  { point := ⟨.unlocked, none⟩, lastMark := none, slipPosition := none, history := [], validRun := 0, rejectRun := 0
    lastPublished := none, heldEvents := [], heldStart := none }

/-- The Block Window after pin reset (R53). -/
def Window.reset : Window :=
  { blocks := [], memory := [], counter := 0, finalBlock := none, reviewHold := Config.defaultHold, releaseMark := none }

/-- A cursor at END, FORWARD (R68). -/
def Cursor.atEnd : Cursor := { target := none, direction := .forward }

/-- The Defect Catalogue after pin reset (R75). -/
def Catalogue.reset : Catalogue :=
  { entries := [], counter := 1, cursors := PerPort.same Cursor.atEnd }

/-- No learn (R133). -/
def Learn.idle : Learn := { state := .idle, remaining := 0, sum := 0, count := 0, counted := none }

/-- A detector after pin reset (R98). -/
def Detector.reset : Detector := { state := .idle, next := 0#40, envelope := 0, carry := [] }

/-- A lane engine after pin reset (R98, R117, R133, R165). -/
def LaneEngine.reset : LaneEngine :=
  { settings := LaneSettings.defaults, detector := Detector.reset, work := .none, learn := Learn.idle }

/-- The Pass Controller after pin reset (R165). -/
def PassControl.reset : PassControl :=
  { state := .idle, laneMask := 0#4, width := .w24, byteOrder := .highFirst, start := 0#40
    perfMin := 128, perfMax := 65535, spliceSpan := 24, runOutEnded := false }

/-- A port after pin reset (R181). -/
def PortState.reset : PortState :=
  { frame := .deselected, received := [], odd := none, lastResult := .done, events := 0#11, mask := 0#11
    attention := false, pulses := 0, byte := 0#8, item := [], walked := none, verdict := .done, drain := none
    driven := [] }

/-- The port that CHIEF[1:0] names: value 3 names port 0 (R171). -/
def chiefPort (chief : BitVec 2) : Port :=
  if chief = 1#2 then .port1 else if chief = 2#2 then .port2 else .port0

/-- Every resource given to one port (R171). -/
def Rights.allTo (p : Port) : Rights :=
  { pass := p, lanes := PerLane.same p, review := p, drain := p, chief := p }

/-- The part right after pin reset. DESIGN CHOICE (log entry 1): CHIEF[1:0] read 0, so port 0 holds every right; PIN_RESET
carries their value. DESIGN CHOICE (log entry 2): no cell of the window memory is written. -/
def State.reset : State :=
  { pending := [], pass := PassControl.reset, scan := ScanInput.reset, tracker := Tracker.reset, window := Window.reset
    catalogue := Catalogue.reset, engines := PerLane.same LaneEngine.reset, ports := PerPort.same PortState.reset
    rights := Rights.allTo (chiefPort 0#2) }

end Sys2Proof.Machine
end

