-- ==== Sys2Proof/Machine/Operands.lean ====
section
/-! DEFINITION. What the operands of the commands stand for: the codes of R191, the format byte of OPEN, the lane setting
a parameter number names with its range (R160), the bit stream of a DATA word (R11, R12), and signed readings. -/

namespace Sys2Proof.Machine

/-! ## Numbers -/

/-- A value brought into lo..hi (OPEN, LPUT, HOLD, LEARN). -/
def clampNat (lo hi v : Nat) : Nat := max lo (min v hi)

/-- clamp(x, ±m) (Conventions 3.4). -/
def clampInt (m x : Int) : Int := max (-m) (min x m)

/-- sat32(x) (Conventions 3.4). -/
def sat32 (x : Int) : Int := max (-(2 ^ 31)) (min x (2 ^ 31 - 1))

/-- Shift right by s: floor division by 2^s (Conventions 3.4). -/
def shiftRight (x : Int) (s : Nat) : Int := x / (2 ^ s : Int)

/-- How far position b lies after position a: (b − a) mod 2^40 read as a signed 40-bit number (R23, R57). -/
def distance (a b : Position) : Int := (b - a).toInt

/-! ## Link samples -/

/-- The sample width w in bits. -/
def Width.bits : Width → Nat
  | .w12 => 12
  | .w16 => 16
  | .w20 => 20
  | .w24 => 24

/-- The width that the width field of the OPEN format byte names (R152, R193). -/
def Width.ofNat? : Nat → Option Width
  | 12 => some .w12
  | 16 => some .w16
  | 20 => some .w20
  | 24 => some .w24
  | _ => none

/-- The width of a format byte, bits 4..0 (R193). -/
def formatWidth (f : Byte) : Option Width := Width.ofNat? (f.extractLsb' 0 5).toNat

/-- The byte order of a format byte, bits 7..5 (R193). -/
def formatOrder (f : Byte) : Option ByteOrder :=
  match (f.extractLsb' 5 3).toNat with
  | 0 => some .highFirst
  | 1 => some .lowFirst
  | _ => none

/-- The bits of a byte, most significant first (R11). -/
def byteBits (b : Byte) : List Bool :=
  [b.getLsbD 7, b.getLsbD 6, b.getLsbD 5, b.getLsbD 4, b.getLsbD 3, b.getLsbD 2, b.getLsbD 1, b.getLsbD 0]

/-- The 32 bits that a DATA word contributes to the bit stream, first received first (R11). -/
def streamBits (o : ByteOrder) (w : Word32) : List Bool :=
  match o with
  | .highFirst => (bytes4 w).flatMap byteBits
  | .lowFirst => (bytes4 w).reverse.flatMap byteBits

/-- The number that bits spell, most significant first. -/
def bitsToNat (bits : List Bool) : Nat := bits.foldl (fun n b => 2 * n + b.toNat) 0

/-- The w-bit two's complement value of a completed sample (R12). -/
def linkValue (w : Width) (bits : List Bool) : Int := (BitVec.ofNat w.bits (bitsToNat bits)).toInt

/-- The original sample of a completed link sample: v × 2^(24−w) (R12). -/
def originalSample (w : Width) (bits : List Bool) : Sample :=
  BitVec.ofInt 24 (linkValue w bits * 2 ^ (24 - w.bits))

/-- The words needed by a packet of `count` positions on `lanes` lanes: ceil(c × n × w / 32) (R1). -/
def wordsNeededFor (count lanes : Nat) (w : Width) : Nat := (count * lanes * w.bits + 31) / 32

/-- The active lanes of a lane mask, in ascending lane number. -/
def lanesOf (mask : BitVec 4) : List Lane := Lane.all.filter (fun l => mask.getLsbD l.toNat)

/-! ## Codes (R191) -/

/-- The pass state code. -/
def PassState.code : PassState → Byte
  | .idle => 0#8
  | .running => 1#8
  | .closing => 2#8
  | .ended => 3#8

/-- The lock state code. -/
def LockState.code : LockState → Byte
  | .unlocked => 0#8
  | .locked => 1#8
  | .holdover => 2#8

/-- The entry kind code. -/
def EntryKind.code : EntryKind → Byte
  | .click => 1#8
  | .void => 2#8
  | .gap => 3#8
  | .splice => 4#8
  | .slip => 5#8

/-- The decision code, 0 for an absent decision. -/
def decisionCode : Option Decision → Byte
  | none => 0#8
  | some .repair => 1#8
  | some .pass => 2#8
  | some .hold => 3#8

/-- The decision that a decision code names (R72, R191). -/
def Decision.ofCode (c : Byte) : Option Decision :=
  if c = 1#8 then some .repair else if c = 2#8 then some .pass else if c = 3#8 then some .hold else none

/-- The direction code. -/
def Direction.code : Direction → Byte
  | .forward => 0#8
  | .backward => 1#8

/-- The direction that a direction code names (R70, R191). -/
def Direction.ofCode (c : Byte) : Option Direction :=
  if c = 0#8 then some .forward else if c = 1#8 then some .backward else none

/-- The four modes of CSEEK (R70, R191). -/
inductive SeekMode where
  | first | last | number | position
  deriving DecidableEq, Repr

/-- The mode that a mode code names (R70, R191). -/
def SeekMode.ofCode (c : Byte) : Option SeekMode :=
  if c = 0#8 then some .first else if c = 1#8 then some .last else if c = 2#8 then some .number
  else if c = 3#8 then some .position else none

/-- The resource that a resource code names (R173, R191). -/
def Resource.ofCode (c : Byte) : Option Resource :=
  match c.toNat with
  | 0 => some .pass
  | 1 => some (.lane .lane0)
  | 2 => some (.lane .lane1)
  | 3 => some (.lane .lane2)
  | 4 => some (.lane .lane3)
  | 5 => some .review
  | 6 => some .drain
  | 7 => some .chief
  | _ => none

/-- The resources in code order (R171, R191). -/
def Resource.all : List Resource :=
  [.pass, .lane .lane0, .lane .lane1, .lane .lane2, .lane .lane3, .review, .drain, .chief]

/-- The code of a port. -/
def Port.code (p : Port) : Byte := BitVec.ofNat 8 p.toNat

/-- The owner port of a resource (R171). -/
def Rights.owner (r : Rights) : Resource → Port
  | .pass => r.pass
  | .lane l => r.lanes.get l
  | .review => r.review
  | .drain => r.drain
  | .chief => r.chief

/-- The rights table with a new owner of one resource (R173). -/
def Rights.grant (r : Rights) (res : Resource) (p : Port) : Rights :=
  match res with
  | .pass => { r with pass := p }
  | .lane l => { r with lanes := r.lanes.set l p }
  | .review => { r with review := p }
  | .drain => { r with drain := p }
  | .chief => { r with chief := p }

/-! ## Lane settings (R160 to R162) -/

/-- The stored value of parameter P0..P15; a parameter number of 16 or more names none (R164). -/
def LaneSettings.get (p : LaneSettings) : Nat → Option Nat
  | 0 => some p.clickRatio
  | 1 => some p.tmin
  | 2 => some p.guardLen
  | 3 => some p.maxspan
  | 4 => some p.longPolicy
  | 5 => some p.rhoA
  | 6 => some p.harmonicsA
  | 7 => some p.rhoB
  | 8 => some p.harmonicsB
  | 9 => some p.adaptShift
  | 10 => some p.crossover
  | 11 => some p.attack
  | 12 => some p.release
  | 13 => some p.openRatio
  | 14 => some p.gmin
  | 15 => some p.floor
  | _ => none

/-- Parameter P0..P15 replaced; a parameter number of 16 or more stores nothing (R161). -/
def LaneSettings.put (p : LaneSettings) (i v : Nat) : LaneSettings :=
  match i with
  | 0 => { p with clickRatio := v }
  | 1 => { p with tmin := v }
  | 2 => { p with guardLen := v }
  | 3 => { p with maxspan := v }
  | 4 => { p with longPolicy := v }
  | 5 => { p with rhoA := v }
  | 6 => { p with harmonicsA := v }
  | 7 => { p with rhoB := v }
  | 8 => { p with harmonicsB := v }
  | 9 => { p with adaptShift := v }
  | 10 => { p with crossover := v }
  | 11 => { p with attack := v }
  | 12 => { p with release := v }
  | 13 => { p with openRatio := v }
  | 14 => { p with gmin := v }
  | 15 => { p with floor := v }
  | _ => p

/-- The range of parameter P0..P15 (R160). -/
def parameterRange : Nat → Option (Nat × Nat)
  | 0 => some (16, 1023)
  | 1 => some (0, 65535)
  | 2 => some (2, 8)
  | 3 => some (1, 48)
  | 4 => some (0, 1)
  | 5 => some (1, 65535)
  | 6 => some (0, 8)
  | 7 => some (1, 65535)
  | 8 => some (0, 8)
  | 9 => some (6, 24)
  | 10 => some (1, 8)
  | 11 => some (1, 12)
  | 12 => some (1, 16)
  | 13 => some (16, 255)
  | 14 => some (0, 32768)
  | 15 => some (0, 8388607)
  | _ => none

/-- The value that LPUT stores for parameter i: the value brought into its range (R161), and a harmonic count then brought
to at most 12 less the other count (R162). None for a parameter number of 16 or more. -/
def storedValue (p : LaneSettings) (i v : Nat) : Option Nat :=
  match parameterRange i with
  | none => none
  | some (lo, hi) =>
    let c := clampNat lo hi v
    if i = 6 then some (min c (12 - p.harmonicsB))
    else if i = 8 then some (min c (12 - p.harmonicsA))
    else some c

end Sys2Proof.Machine
end

