-- ==== Sys2Proof/Machine/Flags.lean ====
section
/-! DEFINITION. Flags and outputs: events and attention (R176), the film flags, the READY output (R3), the status byte
(R169) and the result codes (section 10.4). -/

namespace Sys2Proof.Machine

/-- The eleven events, in mask order (section 10.5). -/
inductive Event where
  | released | held | cathigh | unlisted | link | winfull | humlock | humloss | rendered | learned | passend
  deriving DecidableEq, Repr

/-- The event bit (R191). -/
def Event.bit : Event → Nat
  | .released => 0
  | .held => 1
  | .cathigh => 2
  | .unlisted => 3
  | .link => 4
  | .winfull => 5
  | .humlock => 6
  | .humloss => 7
  | .rendered => 8
  | .learned => 9
  | .passend => 10

/-- The event set that holds one event. -/
def Event.flag (e : Event) : EventSet := BitVec.ofNat 11 (2 ^ e.bit)

/-- An event raised: its flag is set in the event sets of all three ports (R176). -/
def raise (e : Event) (s : State) : State :=
  { s with ports := s.ports.map (fun q => { q with events := q.events ||| e.flag }) }

/-- The result codes of section 10.4. -/
def Result.code : Result → Byte
  | .done => 0#8
  | .clamped => 1#8
  | .denied => 2#8
  | .state => 3#8
  | .arg => 4#8
  | .late => 5#8
  | .noent => 6#8
  | .conflict => 7#8
  | .forced => 8#8
  | .full => 9#8
  | .short => 10#8
  | .unknown => 11#8

/-- DONE, or CLAMPED where a clamp changed a value. -/
def doneOrClamped (changed : Bool) : Result := if changed then .clamped else .done

/-- A port's attention condition: its event set and mask have a flag in common (R176). -/
def attentionOf (q : PortState) : Bool := q.events &&& q.mask != 0#11

/-- READY as R3 gives it. -/
def readyOf (s : State) : Bool := s.pass.state == .running && decide (s.scan.fifo.length ≤ Config.readyLevel)

/-- The outputs re-judged: READY (R3) and each port's attention line (R176). Every command ends with this. -/
def settle (s : State) : State :=
  { s with
    scan := { s.scan with ready := readyOf s }
    ports := s.ports.map (fun q => { q with attention := attentionOf q }) }

/-- The outcome of a command: the state with its outputs re-judged. -/
def completed (s : State) : Host.Outcome State Fault Refusal := .next (settle s)

/-- The pass-busy flag of the status byte (R169). -/
def passBusy (s : State) : Bool := s.pass.state != .idle

/-- The status byte: last result in bits 3..0, attention-pending in bit 4, pass-busy in bit 5 (R169, R193). DESIGN CHOICE (log
entry 29): a repeated status byte shows the last result as it then stands, so that an RSTP of another port (R180) shows in
the rest of a frame, where R169 says that the last result does not change between repetitions. -/
def statusByte (s : State) (p : Port) : Byte :=
  let q := s.ports.get p
  q.lastResult.code ||| (if attentionOf q then 0x10#8 else 0#8) ||| (if passBusy s then 0x20#8 else 0#8)

/-- The film flags of a block record (R37). -/
inductive FilmFlag where
  | gap | slip | link
  deriving DecidableEq, Repr

/-- A film flag set in a block record. -/
def Block.setFilm (b : Block) : FilmFlag → Block
  | .gap => { b with filmGap := true }
  | .slip => { b with filmSlip := true }
  | .link => { b with filmLink := true }

/-- The film flags byte of the drain record header (R195). -/
def Block.filmByte (b : Block) : Byte :=
  (if b.filmGap then 1#8 else 0#8) ||| (if b.filmSlip then 2#8 else 0#8) ||| (if b.filmLink then 4#8 else 0#8)

/-- Whether an event set or mask argument selects each of the eleven events; bits 11..15 are ignored (R177, R191). -/
def eventArgument (v : BitVec 16) : EventSet := v.extractLsb' 0 11

/-- The two bytes of an event set; bits 11..15 read 0 (R191). -/
def eventBytes (e : EventSet) : List Byte := bytes2 (e.zeroExtend 16)

end Sys2Proof.Machine
end

