-- ==== Sys2Proof/Machine/Ops.lean ====
section
/-! DEFINITION. The shared operations: the window memory (R36), blocks and lane records (R35 to R38), positions of the
pass (R57), the Defect Catalogue's order, listing and removal (R56 to R59, R63, R67, R69), stale requests (R45), the release
rule (R46, R47) and the reports that end a pass (R155, R156). -/

namespace Sys2Proof.Machine

/-! ## The window memory (R36) -/

/-- The number of an array within a lane. -/
def SampleArray.toNat : SampleArray → Nat
  | .original => 0
  | .mended => 1
  | .restored => 2

/-- The address of the cell of a slot, array, lane and position offset: offset varies fastest, then array, lane and slot.
The manual numbers no addresses, and nothing outside the part sees them (log entry 3). -/
def sampleAddress (slot : Nat) (a : SampleArray) (l : Lane) (offset : Nat) : Nat :=
  ((slot * 4 + l.toNat) * 3 + a.toNat) * Config.blockSize + offset

/-- The value of a cell; a cell that is not listed reads as the unwritten value (log entry 2). -/
def readCell : WindowMemory → Nat → Sample
  | [], _ => Config.unwrittenSample
  | (b, v) :: rest, a => if a = b then v else readCell rest a

/-- A cell put in front, unless its value is the unwritten value. -/
def putCell (a : Nat) (v : Sample) (m : WindowMemory) : WindowMemory :=
  if v = Config.unwrittenSample then m else (a, v) :: m

/-- A cell written, the memory kept in its canonical form. -/
def writeCell : WindowMemory → Nat → Sample → WindowMemory
  | [], a, v => putCell a v []
  | (b, w) :: rest, a, v =>
    if a < b then putCell a v ((b, w) :: rest)
    else if a = b then putCell a v rest
    else (b, w) :: writeCell rest a v

/-- The canonical form: addresses strictly rising, and no cell listed that reads as the unwritten value. -/
abbrev Memory.wf (m : WindowMemory) : Prop :=
  m.Pairwise (fun c d => c.1 < d.1) ∧ ∀ c ∈ m, c.2 ≠ Config.unwrittenSample

/-- The value of an array of a lane of a block at an offset. -/
def readSample (s : State) (b : Block) (a : SampleArray) (l : Lane) (offset : Nat) : Sample :=
  readCell s.window.memory (sampleAddress b.slot a l offset)

/-- The state with other window memory. -/
def State.setMemory (s : State) (m : WindowMemory) : State := { s with window := { s.window with memory := m } }

/-- A value written into an array of a lane of a block at an offset. -/
def writeSample (s : State) (b : Block) (a : SampleArray) (l : Lane) (offset : Nat) (v : Sample) : State :=
  s.setMemory (writeCell s.window.memory (sampleAddress b.slot a l offset) v)

/-! ## Updates -/

/-- The state with other blocks in the window. -/
def State.setBlocks (s : State) (bs : List Block) : State := { s with window := { s.window with blocks := bs } }

/-- Every block of the window changed alike. -/
def State.mapBlocks (s : State) (f : Block → Block) : State := s.setBlocks (s.window.blocks.map f)

/-- The block of one number changed. -/
def State.mapBlock (s : State) (k : Nat) (f : Block → Block) : State :=
  s.mapBlocks (fun b => if b.number = k then f b else b)

/-- The state with other catalogue entries. -/
def State.setEntries (s : State) (es : List Entry) : State := { s with catalogue := { s.catalogue with entries := es } }

/-- One lane engine changed. -/
def State.mapEngine (s : State) (l : Lane) (f : LaneEngine → LaneEngine) : State :=
  { s with engines := s.engines.set l (f (s.engines.get l)) }

/-- One port changed. -/
def State.mapPort (s : State) (p : Port) (f : PortState → PortState) : State :=
  { s with ports := s.ports.set p (f (s.ports.get p)) }

/-- The lane record of a lane changed, where the block has one. -/
def Block.mapRecord (b : Block) (l : Lane) (f : LaneRecord → LaneRecord) : Block :=
  { b with lanes := b.lanes.set l ((b.lanes.get l).map f) }

/-! ## Positions and blocks -/

/-- The active lane set, in ascending lane number. -/
def activeLanes (s : State) : List Lane := lanesOf s.pass.laneMask

/-- The pass offset of a position (R57). -/
def passOffset (s : State) (p : Position) : Int := distance s.pass.start p

/-- The number of the block of the pass that holds a position: floor(pass offset / 2048) (R57). -/
def blockNumberOf (s : State) (p : Position) : Int := passOffset s p / (Config.blockSize : Int)

/-- The block of the window with a number. -/
def blockNumbered (s : State) (k : Nat) : Option Block := s.window.blocks.find? (fun b => b.number == k)

/-- The block in the window that holds a position. -/
def blockHolding (s : State) (p : Position) : Option Block :=
  s.window.blocks.find? (fun b => (b.number : Int) == blockNumberOf s p)

/-- The first position of block k: start + 2048 k, modulo 2^40 (R17). -/
def firstPositionOf (s : State) (k : Nat) : Position := s.pass.start + BitVec.ofNat 40 (Config.blockSize * k)

/-- A position belongs to a block yet to be secured: it is the first position of the block that the block counter numbers, or
lies after it (R30). DEDUCED (log entry 27): the positions are compared by their signed distance, which also puts a position
of pass offset 2^39, past the last block of a pass, after that block. -/
def yetToSecure (s : State) (p : Position) : Bool := decide (0 ≤ distance (firstPositionOf s s.window.counter) p)

/-- The offset of a position in a block. -/
def offsetIn (b : Block) (p : Position) : Nat := (p - b.first).toNat

/-- The position at an offset of a block. -/
def positionAt (b : Block) (offset : Nat) : Position := b.first + BitVec.ofNat 40 offset

/-- The block in the window that holds a position already written. -/
def writtenBlock (s : State) (p : Position) : Option Block :=
  match blockHolding s p with
  | some b => if offsetIn b p < b.fill then some b else none
  | none => none

/-- The original value of a lane at a position that has been written and whose block is in the window. -/
def originalAt (s : State) (l : Lane) (p : Position) : Option Sample :=
  (writtenBlock s p).map (fun b => readSample s b .original l (offsetIn b p))

/-- The mended value of a lane at a position whose block is in the window. -/
def mendedAt (s : State) (l : Lane) (p : Position) : Option Sample :=
  (blockHolding s p).map (fun b => readSample s b .mended l (offsetIn b p))

/-- The FILLING block, if a block is FILLING. -/
def fillingBlock (s : State) : Option Block := s.window.blocks.find? (fun b => b.state == .filling)

/-- The lowest-numbered FREE slot (R35). -/
def freeSlot (s : State) : Option Nat :=
  (List.range Config.slotCount).find? (fun i => s.window.blocks.all (fun b => b.slot != i))

/-- A film flag set in the FILLING block, if any. -/
def flagFilling (f : FilmFlag) (s : State) : State :=
  s.mapBlocks (fun b => if b.state = .filling then b.setFilm f else b)

/-- A link fault: LINK is raised and the LINK film flag of the FILLING block, if any, is set (R5, R6, R8, R9, R20). -/
def linkFault (s : State) : State := raise .link (flagFilling .link s)

/-- Whether a position is a position of the pass: not before the pass start and, once the final block is set, not past its
last position (R87). -/
def inPass (s : State) (p : Position) : Bool :=
  decide (0 ≤ passOffset s p) &&
    match s.window.finalBlock with
    | none => true
    | some k =>
      match blockNumbered s k with
      | none => decide (passOffset s p < (k : Int) * Config.blockSize)
      | some b => decide (passOffset s p < (k : Int) * Config.blockSize + b.fill)

/-! ## The catalogue (chapter 4) -/

/-- Whether the catalogue holds all it can (R63). -/
def catalogueFull (s : State) : Bool := decide (Config.catalogueDepth ≤ s.catalogue.entries.length)

/-- The second part of the catalogue order: lane-absent entries, then lanes in ascending number (R57). -/
def Entry.laneRank (e : Entry) : Nat :=
  match e.lane with
  | none => 0
  | some l => l.toNat + 1

/-- The third part of the catalogue order: among lane-absent entries GAP, SPLICE, SLIP (R57). -/
def Entry.kindRank (e : Entry) : Nat :=
  match e.lane, e.kind with
  | none, .splice => 1
  | none, .slip => 2
  | _, _ => 0

/-- Whether one entry comes before another in catalogue order (R57). -/
def entryBefore (s : State) (a b : Entry) : Bool :=
  let x := passOffset s a.start
  let y := passOffset s b.start
  decide (x < y) ||
    (x == y && (decide (a.laneRank < b.laneRank) || (a.laneRank == b.laneRank && decide (a.kindRank < b.kindRank))))

/-- An entry put at the place its key gives it (R57). -/
def insertEntry (s : State) (e : Entry) : List Entry → List Entry
  | [] => [e]
  | a :: rest => if entryBefore s e a then e :: a :: rest else a :: insertEntry s e rest

/-- The number after n: from 65535 the counter goes to 1 (R56). -/
def nextNumber (n : Nat) : Nat := if Config.maxEntryNumber ≤ n then 1 else n + 1

/-- The first number from n on that no present entry holds (R56); `fuel` numbers are passed over at most. -/
def freeNumber (taken : List Nat) : Nat → Nat → Nat
  | 0, n => n
  | fuel + 1, n => if n ∈ taken then freeNumber taken fuel (nextNumber n) else n

/-- The number that the next entry listed receives (R56). -/
def assignedNumber (s : State) : Nat :=
  freeNumber (s.catalogue.entries.map (fun e => e.number)) s.catalogue.entries.length s.catalogue.counter

/-- An entry listed: its number, its place in the order and CATHIGH, as one event (R56, R57, R59, R63). The caller has
checked that the catalogue is not full. -/
def listEntry (e : Entry) (s : State) : State :=
  let n := assignedNumber s
  let es := insertEntry s { e with number := n } s.catalogue.entries
  let s' : State := { s with catalogue := { s.catalogue with entries := es, counter := nextNumber n } }
  if es.length = Config.catalogueHigh then raise .cathigh s' else s'

/-- The present entry with a number (0 names none). -/
def entryNumbered (s : State) (n : Nat) : Option Entry := s.catalogue.entries.find? (fun e => e.number == n)

/-- Whether an entry's start lies in the block with a number (R57). -/
def startsIn (s : State) (k : Nat) (e : Entry) : Bool := blockNumberOf s e.start == (k : Int)

/-- A cursor after the entries that satisfy `gone` are removed: a cursor on one of them moves to the entry that follows it
among those left, or to END, and keeps its direction (R69). -/
def Cursor.afterRemoval (entries : List Entry) (gone : Entry → Bool) (c : Cursor) : Cursor :=
  match c.target with
  | none => c
  | some n =>
    match entries.dropWhile (fun e => e.number != n) with
    | [] => c
    | e :: rest =>
      if gone e then { c with target := (rest.find? (fun r => !gone r)).map (fun r => r.number) } else c

/-- The entries that start in a block removed, with the cursors on them (R67, R69). -/
def removeEntriesOf (k : Nat) (s : State) : State :=
  let es := s.catalogue.entries
  { s with
    catalogue :=
      { s.catalogue with
        entries := es.filter (fun e => !startsIn s k e)
        cursors := s.catalogue.cursors.map (Cursor.afterRemoval es (startsIn s k)) } }

/-- Whether a run of positions given by its first pass offset and length covers a pass offset. -/
def covers (first : Int) (length : Nat) (x : Int) : Bool := decide (first ≤ x) && decide (x < first + length)

/-- Whether an entry's span covers a position (R55, R91); a SLIP covers none. -/
def entryCovers (s : State) (e : Entry) (p : Position) : Bool :=
  match e.span with
  | some n => covers (passOffset s e.start) n (passOffset s p)
  | none => false

/-- Whether two spans have a position in common. -/
def spansOverlap (a : Int) (m : Nat) (b : Int) (n : Nat) : Bool := decide (a < b + n) && decide (b < a + m)

/-- Whether an entry's span overlaps the span of `n` positions from `p`. -/
def entryOverlaps (s : State) (e : Entry) (p : Position) (n : Nat) : Bool :=
  match e.span with
  | some m => spansOverlap (passOffset s e.start) m (passOffset s p) n
  | none => false

/-- Whether an entry belongs to a lane: a lane-absent entry belongs to every lane. -/
def Entry.onLane (e : Entry) (l : Lane) : Bool :=
  match e.lane with
  | none => true
  | some m => m == l

/-! ## Stale requests (R45) -/

/-- What a stale request does to one lane record. -/
def LaneRecord.stale (r : LaneRecord) : LaneRecord :=
  match r.render with
  | .done => { r with render := .stale }
  | .working => { r with dirty := true }
  | .stale => r
  | .pending => r

/-- The render state of a lane in a block. -/
def Block.renderOf (b : Block) (l : Lane) : Option RenderState := (b.lanes.get l).map (fun r => r.render)

/-- A stale request for a lane from block b: no effect where the record of b is PENDING, else on the records of that lane
from b on, those that are PENDING left as they are (R45). -/
def staleRequest (l : Lane) (b : Nat) (s : State) : State :=
  match (blockNumbered s b).bind (fun k => k.renderOf l) with
  | none => s
  | some .pending => s
  | some _ => s.mapBlocks (fun k => if b ≤ k.number then k.mapRecord l LaneRecord.stale else k)

/-- A stale request for each of several lanes. -/
def staleRequests (ls : List Lane) (b : Nat) (s : State) : State := ls.foldl (fun t l => staleRequest l b t) s

/-! ## The end of a pass (R155, R156) -/

/-- An ENDED pass whose window holds no block returns to IDLE: PASSEND, and the final block becomes absent (R156). -/
def endedToIdle (s : State) : State :=
  if s.pass.state = .ended ∧ s.window.blocks = [] then
    raise .passend { s with pass := { s.pass with state := .idle }, window := { s.window with finalBlock := none } }
  else s

/-- The report that all blocks are released: a CLOSING pass whose run-out has ended and whose blocks are all RELEASED
becomes ENDED, and IDLE where the window holds no block (R47, R155, R156). -/
def reportReleased (s : State) : State :=
  if s.pass.state = .closing ∧ s.pass.runOutEnded = true ∧ s.window.blocks.all (fun b => b.state == .released) then
    endedToIdle { s with pass := { s.pass with state := .ended } }
  else s

/-! ## Release (R46, R47) -/

/-- Every lane record of a block is DONE. -/
def Block.allDone (b : Block) : Bool :=
  Lane.all.all (fun l => match b.lanes.get l with
    | none => true
    | some r => r.render == .done)

/-- N: the highest number of a block in the window whose lane records are all DONE (R46). -/
def newestDone (s : State) : Option Nat :=
  ((s.window.blocks.filter (fun b => b.allDone)).map (fun b => b.number)).max?

/-- Condition 2 of the release rule for block k (R46). -/
def holdWaived (s : State) (k : Nat) : Bool :=
  (match newestDone s with
    | some n => decide (k + s.window.reviewHold ≤ n)
    | none => false) ||
  (match s.window.releaseMark with
    | some m => decide (k ≤ m)
    | none => false) ||
  s.pass.state == .closing

/-- How many blocks the release rule releases: from the oldest block on, past the RELEASED ones, while the next is HELD
with conditions 1 and 2 met (R46). Condition 3 holds because every block passed is RELEASED. -/
def releasable (s : State) : List Block → List Nat
  | [] => []
  | b :: rest =>
    match b.state with
    | .released => releasable s rest
    | .held => if b.allDone && holdWaived s b.number then b.number :: releasable s rest else []
    | .filling => []
    | .full => []

/-- One block released: its state, RELEASED, and its entries fixed (R47, R66). -/
def releaseBlock (s : State) (k : Nat) : State :=
  let s1 := s.mapBlock k (fun b => if b.state = .held then { b with state := .released } else b)
  raise .released (s1.setEntries (s1.catalogue.entries.map (fun e => if startsIn s1 k e then { e with fixed := true } else e)))

/-- The release rule (R46), with the report that may follow a release (R47). -/
def releaseRule (s : State) : State :=
  match releasable s s.window.blocks with
  | [] => s
  | ks => reportReleased (ks.foldl releaseBlock s)

/-- The drain head: the lowest-numbered RELEASED block (R50). -/
def drainHead (s : State) : Option Block := s.window.blocks.find? (fun b => b.state == .released)

end Sys2Proof.Machine
end

