-- ==== Sys2Proof/Machine/Tracker.lean ====
section
/-! DEFINITION. The Perforation Tracker (chapter 2): marks (R23 to R27), position reports (R28), slips (R29), the placing
of tracker events in block records (R30 to R33), and the command TRACKER_TIMEOUT. -/

namespace Sys2Proof.Machine

/-- The state with another tracker. -/
def State.setTracker (s : State) (t : Tracker) : State := { s with tracker := t }

/-- An event added to a list of at most 17; at 17 it replaces the last (R32). -/
def appendEvent {α : Type} (es : List α) (e : α) : List α :=
  if es.length < Config.maxEvents then es ++ [e] else es.dropLast ++ [e]

/-- Where an event due at `want` is published: not before the last published position (R30). -/
def publishPosition (t : Tracker) (want : Position) : Position :=
  match t.lastPublished with
  | some l => if distance l want < 0 then l else want
  | none => want

/-- An event put into the block record of a secured block: appended at its offset, and the tracker at start of every later
block set to the state in force after it (R30, R31). -/
def placeEvent (b : Block) (pos : Position) (k : TrackerEventKind) (s : State) : State :=
  s.mapBlocks (fun c =>
    if c.number = b.number then { c with events := appendEvent c.events ⟨offsetIn b pos, k⟩ }
    else if b.number < c.number then { c with start := s.tracker.point }
    else c)

/-- An event held for a block not yet secured, with the state in force before the first of them (R30). -/
def holdEvent (before : LockPoint) (pos : Position) (k : TrackerEventKind) (s : State) : State :=
  let t := s.tracker
  s.setTracker
    { t with
      heldEvents := appendEvent t.heldEvents ⟨pos, k⟩
      heldStart := if t.heldEvents = [] then some before else t.heldStart }

/-- An event published at a position (R30). `before` is the lock state and S8 in force before it; the tracker already holds
those after it. It goes into the block that holds its position where that block is FILLING or FULL, and is held where the
block is yet to be secured. -/
def publish (before : LockPoint) (k : TrackerEventKind) (want : Position) (s : State) : State :=
  let pos := publishPosition s.tracker want
  let s1 := s.setTracker { s.tracker with lastPublished := some pos }
  match blockHolding s1 pos with
  | some b => if b.state = .filling ∨ b.state = .full then placeEvent b pos k s1 else s1
  | none => if yetToSecure s1 pos then holdEvent before pos k s1 else s1

/-- The entry to HOLDOVER: S8 kept, history and valid run cleared, a HOLDOVER event at `pos`, HUMLOSS (R27, R28). -/
def enterHoldover (pos : Position) (s : State) : State :=
  let t := s.tracker
  let s1 := s.setTracker { t with point := { t.point with lock := .holdover }, history := [], validRun := 0 }
  raise .humloss (publish t.point .holdover pos s1)

/-- One more rejected mark at p: the reject run rises, stopping at 3, and a LOCKED tracker whose run rises to 3 enters
HOLDOVER, at p or, where p lies before it, at the last mark position (R24, R25, R27). -/
def rejectMark (p : Position) (s : State) : State :=
  let t := s.tracker
  let s1 := s.setTracker { t with rejectRun := min 3 (t.rejectRun + 1) }
  if t.point.lock = .locked ∧ t.rejectRun = 2 then
    let pos := match t.lastMark with
      | some l => if distance l p < 0 then l else p
      | none => p
    enterHoldover pos s1
  else s1

/-- The interval history with a new interval: the oldest of eight leaves it first (R26). -/
def pushInterval (h : List Nat) (i : Nat) : List Nat := (if h.length < 8 then h else h.drop 1) ++ [i]

/-- An accepted interval of a mark at p (R26). -/
def acceptMark (p : Position) (i : Nat) (s : State) : State :=
  let t := s.tracker
  let h := pushInterval t.history i
  let run := min 8 (t.validRun + 1)
  let t1 : Tracker := { t with lastMark := some p, rejectRun := 0, history := h, validRun := run }
  if run = 8 then
    let s8 := h.sum
    let s1 := s.setTracker { t1 with point := ⟨.locked, some s8⟩ }
    if t.point.lock = .locked then publish t.point (.accept s8) p s1
    else raise .humlock (publish t.point (.lock s8) p s1)
  else s.setTracker t1

/-- A mark handed to the tracker at position p (R23). -/
def trackerMark (p : Position) (s : State) : State :=
  let t := s.tracker
  match t.lastMark with
  | none => s.setTracker { t with lastMark := some p, slipPosition := none }
  | some l =>
    let i := distance l p
    if i < s.pass.perfMin then rejectMark p s
    else if i ≤ s.pass.perfMax then acceptMark p i.toNat s
    else rejectMark p (s.setTracker { t with lastMark := some p, history := [], validRun := 0 })

/-- The reference of the timeout: the last mark position, else the slip position (R28). -/
def timeoutReference (t : Tracker) : Option Position :=
  match t.lastMark with
  | some l => some l
  | none => t.slipPosition

/-- Whether the report of position q times the tracker out (R28). -/
def timesOut (s : State) (q : Position) : Bool :=
  match timeoutReference s.tracker with
  | none => false
  | some r => s.tracker.point.lock == .locked && decide (2 * (s.pass.perfMax : Int) < distance r q)

/-- A position report handed to the tracker (R28). -/
def trackerReport (q : Position) (s : State) : State := if timesOut s q then enterHoldover q s else s

/-- A slip handed to the tracker at position p (R29). -/
def trackerSlip (p : Position) (s : State) : State :=
  s.setTracker { s.tracker with lastMark := none, slipPosition := some p }

/-- The tracker fields of a block record as Scan Input secures the block: the tracker at start and the events held for it,
which are held no longer (R31). -/
def securedStart (t : Tracker) : LockPoint :=
  match t.heldEvents with
  | [] => t.point
  | _ => t.heldStart.getD t.point

/-- The held events at their offsets in a block that begins at `first` (R31). -/
def securedEvents (t : Tracker) (first : Position) : List TrackerEvent :=
  t.heldEvents.map (fun e => ⟨(e.position - first).toNat, e.kind⟩)

/-- The tracker with no event held. -/
def Tracker.dropHeld (t : Tracker) : Tracker := { t with heldEvents := [], heldStart := none }

/-- What one tracker event does to the lock state and S8 in force (R32). -/
def LockPoint.after (x : LockPoint) : TrackerEventKind → LockPoint
  | .accept s8 => ⟨.locked, some s8⟩
  | .lock s8 => ⟨.locked, some s8⟩
  | .holdover => ⟨.holdover, x.s8⟩

/-- The lock state and S8 in force at an offset of a block (R32). -/
def pointAt (b : Block) (offset : Nat) : LockPoint :=
  (b.events.filter (fun e => decide (e.offset ≤ offset))).foldl (fun x e => x.after e.kind) b.start

/-- Whether a report of position q can reach the tracker: Scan Input reports written positions, and a written position last
lies in a block that is FILLING or FULL (R16). Once the run-out has ended nothing more reaches the tracker (R33), and once
the input has ended no position is written (R17). -/
def reportable (s : State) (q : Position) : Bool :=
  !s.pass.runOutEnded && !s.scan.inputEnded &&
    match writtenBlock s q with
    | some b => b.state == .filling || b.state == .full
    | none => false

/-- TRACKER_TIMEOUT: the report of position q (R28). The same report is made by every position that Scan Input writes; a
position that Scan Input cannot report leaves the part as it is (log entry 8). -/
def execTrackerTimeout (q : Position) (s : State) : Host.Outcome State Fault Refusal :=
  completed (if reportable s q then trackerReport q s else s)

end Sys2Proof.Machine
end

