-- ==== Sys2Proof/Machine/Assembler.lean ====
section
/-! DEFINITION. Scan Input (chapter 1): arrivals (R2), the taking of FIFO entries (R4 to R9), void filling (R10),
unpacking (R11, R12), gap and slip judgement (R13 to R15), position writes and blocks (R16 to R19), stalls (R18), and the
commands TRANSFER, HEAD_TAKEN, DATA_TAKEN, MARK_TAKEN and END_TAKEN. -/

namespace Sys2Proof.Machine

/-- The state with another Scan Input. -/
def State.setScan (s : State) (x : ScanInput) : State := { s with scan := x }

/-- The state with another packet state. -/
def State.setPacket (s : State) (p : PacketState) : State := s.setScan { s.scan with packet := p }

/-- The state with another pending fill. -/
def State.setFill (s : State) (n : Nat) : State := s.setScan { s.scan with pendingFill := n }

/-- The state with another packet context. -/
def State.setContext (s : State) (c : Option PacketContext) : State := s.setScan { s.scan with context := c }

/-- How far the work on an entry has come: done, stalled with so many bits of a DATA word unpacked (R18), or ended because
the pass has reached its last block (R17). -/
inductive Run where
  | done (s : State)
  | stalled (s : State) (bits : Nat)
  | ended (s : State)
  deriving DecidableEq, Repr

/-! ## Securing a block (R17, R18, R35, R37, R38) -/

/-- A lane record as it is set up when its block is secured (R38). -/
def LaneRecord.fresh : LaneRecord :=
  { render := .pending, dirty := false, learnFlag := false, unlisted := 0, inputPeak := none, outputPeak := 0
    snapshot := Snapshot.zero }

/-- One fresh lane record for each lane of the active lane set. -/
def freshRecords (mask : BitVec 4) : PerLane (Option LaneRecord) :=
  (PerLane.same ()).mapIdx (fun l _ => if mask.getLsbD l.toNat then some LaneRecord.fresh else none)

/-- The block record of a slot that becomes FILLING (R37). -/
def securedBlock (s : State) (slot : Nat) : Block :=
  let first := firstPositionOf s s.window.counter
  { slot := slot, number := s.window.counter, first := first, fill := 0, state := .filling
    filmGap := false, filmSlip := false, filmLink := false
    start := securedStart s.tracker, events := securedEvents s.tracker first
    lanes := freshRecords s.pass.laneMask }

/-- A FREE slot taken for the block that the counter numbers (R17, R31, R35). -/
def takeSlot (slot : Nat) (s : State) : State :=
  { s with
    window := { s.window with blocks := s.window.blocks ++ [securedBlock s slot], counter := s.window.counter + 1 }
    tracker := s.tracker.dropHeld }

/-- The end of the input at the block limit: LINK, and everything in progress dropped (R17). -/
def endInput (s : State) : State :=
  raise .link (s.setScan
    { s.scan with
      inputEnded := true, heldWord := none, context := none, pendingFill := 0, packet := .none, suspended := none })

/-- The start of a stall: WINFULL is raised once (R18). -/
def beginStall (s : State) : State := raise .winfull (s.setScan { s.scan with stall := ⟨true, true⟩ })

/-- The block of the next position secured: the FILLING block where there is one, else a FREE slot; at the block limit the
input ends, and without a FREE slot the assembler stalls (R17, R18). -/
def secure (s : State) : Run :=
  if (fillingBlock s).isSome then .done s
  else if Config.maxBlocks ≤ s.window.counter then .ended (endInput s)
  else
    match freeSlot s with
    | none => .stalled (beginStall s) 0
    | some slot => .done (takeSlot slot s)

/-! ## Position writes (R16, R19) -/

/-- One original sample written at the next position on a lane (R11, R16). -/
def writeOriginal (l : Lane) (v : Sample) (s : State) : State :=
  match fillingBlock s with
  | some b => writeSample s b .original l (offsetIn b s.scan.next) v
  | none => s

/-- The next position counted as written: it rises by 1, the fill count rises by 1, a block of 2048 positions becomes FULL,
and the position is reported to the tracker (R16, R19, R28). -/
def countPosition (s : State) : State :=
  let q := s.scan.next
  let s1 := s.setScan { s.scan with next := q + 1#40 }
  let s2 := s1.mapBlocks (fun b =>
    if b.state = .filling then
      { b with fill := b.fill + 1, state := if b.fill + 1 = Config.blockSize then .full else .filling }
    else b)
  trackerReport q s2

/-- The void value written at the next position on every active lane not yet written there (R10). -/
def writeVoids (s : State) : State :=
  let written := (s.scan.context.map (fun c => c.lanesWritten)).getD 0
  ((activeLanes s).drop written).foldl (fun t l => writeOriginal l Config.voidValue t) s

/-- The packet context once the position it was writing is complete. -/
def clearLanesWritten (s : State) : State :=
  s.setContext (s.scan.context.map (fun c => { c with lanesWritten := 0 }))

/-- A fill of `n` void positions, each block it writes into flagged; it stops where no block can be secured, with the rest
as pending fill (R10, R14, R18). -/
def fillVoids (f : FilmFlag) : Nat → State → Run
  | 0, s => .done s
  | n + 1, s =>
    match secure s with
    | .done s1 =>
      fillVoids f n ((clearLanesWritten (countPosition (flagFilling f (writeVoids s1)))).setFill n)
    | .stalled s1 _ => .stalled s1 0
    | .ended s1 => .ended s1

/-! ## Unpacking (R11, R12) -/

/-- How many positions of the packet have been assembled or filled. -/
def assembled (s : State) (c : PacketContext) : Nat := (s.scan.next - c.first).toNat

/-- A completed sample written at its lane and position; with the sample of the highest active lane the position is
assembled (R11, R16). -/
def placeSample (c : PacketContext) (bits : List Bool) (s : State) : State :=
  match (activeLanes s)[c.lanesWritten]? with
  | none => s
  | some l =>
    let s1 := writeOriginal l (originalSample s.pass.width bits) s
    if c.lanesWritten + 1 < (activeLanes s).length then
      s1.setContext (some { c with partialBits := [], lanesWritten := c.lanesWritten + 1 })
    else
      countPosition (s1.setContext (some { c with partialBits := [], lanesWritten := 0 }))

/-- The bits of a DATA word unpacked from its bit number `at_` on; the bits left once the last position of the packet is
assembled are padding (R11). -/
def unpackBits : List Bool → Nat → State → Run
  | [], _, s => .done s
  | bit :: rest, at_, s =>
    match s.scan.context with
    | none => .done s
    | some c =>
      if c.count ≤ assembled s c then .done s
      else if c.partialBits.length + 1 < s.pass.width.bits then
        unpackBits rest (at_ + 1) (s.setContext (some { c with partialBits := c.partialBits ++ [bit] }))
      else
        match secure s with
        | .done s1 => unpackBits rest (at_ + 1) (placeSample c (c.partialBits ++ [bit]) s1)
        | .stalled s1 _ => .stalled s1 at_
        | .ended s1 => .ended s1

/-- A DATA word unpacked from bit `at_` on. -/
def unpackWord (w : Word32) (at_ : Nat) (s : State) : Run :=
  unpackBits ((streamBits s.pass.byteOrder w).drop at_) at_ s

/-! ## Headers (R5, R13 to R15) -/

/-- A HEAD held as word A (R5). -/
def takeWordA (w : Word32) (s : State) : State :=
  s.setScan { s.scan with heldWord := some w, context := none, packet := .header }

/-- The packet context set up after judgement (R5). -/
def openPacket (a : Word32) (s : State) : State :=
  s.setScan
    { s.scan with
      packet := .opened
      heldWord := none
      context := some
        { first := s.scan.next, count := headCount a
          wordsNeeded := wordsNeededFor (headCount a) (activeLanes s).length s.pass.width
          wordsReceived := 0, partialBits := [], lanesWritten := 0 } }

/-- Whether a header passes the checks of R5: the lane mask equals the pass lane set, and the count lies in 1..1024. -/
def headerValid (s : State) (a : Word32) : Bool :=
  headMask a == s.pass.laneMask.zeroExtend 8 && decide (1 ≤ headCount a) && decide (headCount a ≤ Config.maxPacket)

/-- A header rejected or broken: the held word is dropped, with a link fault (R5, R6, R8, R9). -/
def dropHeader (p : PacketState) (s : State) : State :=
  linkFault (s.setScan { s.scan with heldWord := none, packet := p })

/-- The default decision of a GAP of d positions: by the smallest maxspan of the active lanes (R14). -/
def gapDecision (s : State) (d : Nat) : Decision :=
  if (activeLanes s).all (fun l => decide (d ≤ (s.engines.get l).settings.maxspan)) then .repair else .hold

/-- One unlisted repair more in a lane record, stopping at 255 (R38, R64, R65). -/
def LaneRecord.countUnlisted (r : LaneRecord) : LaneRecord :=
  { r with unlisted := min Config.maxUnlisted (r.unlisted + 1) }

/-- A GAP of d positions listed at the next position, or counted as an unlisted repair of every active lane where the
catalogue is full (R14, R61, R65). -/
def listGap (d : Nat) (s : State) : State :=
  if catalogueFull s then
    raise .unlisted (s.mapBlocks (fun b =>
      if b.state = .filling then (activeLanes s).foldl (fun c l => c.mapRecord l LaneRecord.countUnlisted) b else b))
  else
    listEntry
      { number := 0, kind := .gap, lane := none, start := s.scan.next, span := some d, peak := none
        decision := some (gapDecision s d), decidedBy := .default, reported := none, fixed := false } s

/-- A SLIP listed at the next position where the catalogue has room, the SLIP film flag set, and the slip handed to the
tracker (R15, R61, R65). -/
def judgeSlip (expected reported : Word32) (s : State) : State :=
  let s1 :=
    if catalogueFull s then s
    else listEntry
      { number := 0, kind := .slip, lane := none, start := s.scan.next, span := none, peak := none
        decision := none, decidedBy := .default, reported := some ⟨expected, reported⟩, fixed := false } s
  trackerSlip s.scan.next (flagFilling .slip s1)

/-- The run carried on where it is done. -/
def Run.andThen (r : Run) (f : State → Run) : Run :=
  match r with
  | .done s => f s
  | .stalled s n => .stalled s n
  | .ended s => .ended s

/-- Gap and slip judgement of a header whose word A is `a` and word B `b`, then the opening of the packet (R5, R13). -/
def judgeHeader (a b : Word32) (s : State) : Run :=
  let expected := s.scan.next.setWidth 32
  let d := (b - expected).toInt
  if d = 0 then .done (openPacket a s)
  else if 1 ≤ d ∧ d ≤ Config.maxGap then
    let n := d.toNat
    (fillVoids .gap n ((listGap n s).setFill n)).andThen (fun t => .done (openPacket a t))
  else .done (openPacket a (judgeSlip expected b s))

/-- Word B of a header: the checks, the securing of the block and the judgement (R5). -/
def takeWordB (b : Word32) (s : State) : Run :=
  match s.scan.heldWord with
  | none => .done (dropHeader .discard s)
  | some a =>
    if headerValid s a then (secure s).andThen (judgeHeader a b)
    else .done (dropHeader .discard s)

/-! ## The end of a packet (R9) -/

/-- The positions of the open packet not yet assembled. -/
def unassembled (s : State) : Nat :=
  match s.scan.context with
  | none => 0
  | some c => c.count - assembled s c

/-- The fault fill of the open packet, up to its last position (R9, R10). -/
def faultFill (s : State) : Run := fillVoids .link s.scan.pendingFill s

/-- The open packet closed by END once it is filled. -/
def closePacket (s : State) : State := s.setScan { s.scan with packet := .none, context := none }

/-! ## One entry (R4 to R9) -/

/-- The work of an entry taken up after a stall (R18). -/
def continueEntry (e : FifoEntry) (bits : Nat) (s : State) : Run :=
  match e.tag, s.scan.packet with
  | .head, .header =>
    match s.scan.pendingFill, s.scan.heldWord with
    | 0, _ => takeWordB e.word s
    | n + 1, some a => (fillVoids .gap (n + 1) s).andThen (fun t => .done (openPacket a t))
    | _ + 1, none => .done s
  | .head, _ => (faultFill s).andThen (fun t => .done (takeWordA e.word t))
  | .close, _ => (faultFill s).andThen (fun t => .done (closePacket t))
  | .data, _ => unpackWord e.word bits s
  | .mark, _ => .done s

/-- A HEAD acted on (R5, R9). DESIGN CHOICE (log entry 26): in OPEN, LINK is raised as the HEAD is acted on, before the
fault fill and so before any stall of it; R9 gives no order across a stall. -/
def actHead (e : FifoEntry) (s : State) : Run :=
  match s.scan.packet with
  | .none | .discard => .done (takeWordA e.word s)
  | .header => takeWordB e.word s
  | .opened => continueEntry e 0 (raise .link (s.setFill (unassembled s)))
  | .damaged => continueEntry e 0 (s.setFill (unassembled s))

/-- A DATA word acted on (R6). -/
def actData (e : FifoEntry) (s : State) : Run :=
  match s.scan.packet, s.scan.context with
  | .opened, some c =>
    if c.wordsReceived < c.wordsNeeded then
      unpackWord e.word 0 (s.setContext (some { c with wordsReceived := c.wordsReceived + 1 }))
    else .done (linkFault s)
  | .opened, none => .done (linkFault s)
  | .damaged, _ | .discard, _ => .done s
  | .none, _ => .done (linkFault s)
  | .header, _ => .done (dropHeader .discard s)

/-- A MARK acted on (R8). -/
def actMark (e : FifoEntry) (s : State) : Run :=
  match s.scan.packet with
  | .opened | .damaged =>
    match s.scan.context with
    | some c =>
      if e.word.toNat ≤ c.count then .done (trackerMark (c.first + e.word.setWidth 40) s) else .done (linkFault s)
    | none => .done (linkFault s)
  | .discard => .done s
  | .none => .done (linkFault s)
  | .header => .done (dropHeader .discard s)

/-- An END acted on (R9). DESIGN CHOICE (log entry 26): LINK of an END with positions missing is raised as the END is acted
on, before the fault fill and so before any stall of it; R9 gives no order across a stall. -/
def actEnd (e : FifoEntry) (s : State) : Run :=
  match s.scan.packet with
  | .opened =>
    let s1 := s.setFill (unassembled s)
    continueEntry e 0 (if unassembled s = 0 then s1 else raise .link s1)
  | .damaged => continueEntry e 0 (s.setFill (unassembled s))
  | .discard => .done (s.setPacket .none)
  | .none => .done (linkFault s)
  | .header => .done (dropHeader .none s)

/-- An entry's tag and word acted on. -/
def actEntry (e : FifoEntry) (s : State) : Run :=
  match e.tag with
  | .head => actHead e s
  | .data => actData e s
  | .mark => actMark e s
  | .close => actEnd e s

/-- The loss mark of an entry acted on (R7). -/
def actLoss (s : State) : State :=
  let s1 := flagFilling .link s
  match s1.scan.packet with
  | .opened => s1.setPacket .damaged
  | .header => s1.setScan { s1.scan with heldWord := none, packet := .discard }
  | .none | .discard | .damaged => s1

/-- The end of the work on an entry: its loss mark, or the entry kept as the suspended entry (R4, R7, R18). -/
def finishEntry (e : FifoEntry) : Run → State
  | .done s =>
    let s1 := s.setScan { s.scan with suspended := none }
    if e.loss then actLoss s1 else s1
  | .stalled s n => s.setScan { s.scan with suspended := some ⟨e, n⟩ }
  | .ended s => s

/-- Whether the assembler takes entries: RUNNING or CLOSING, and not stalled (R4). -/
def assemblerTakes (s : State) : Bool :=
  (s.pass.state == .running || s.pass.state == .closing) && !s.scan.stall.waiting

/-- An entry taken whole (R4); once the input has ended it is discarded (R17). -/
def takeEntry (e : FifoEntry) (s : State) : State :=
  if s.scan.inputEnded then s else finishEntry e (actEntry e s)

/-- The oldest entry of the scan FIFO taken, where the assembler takes entries and that entry has the given tag; where it
does not, the assembler takes nothing (R4; log entry 5). -/
def takeOldest (t : Tag) (s : State) : State :=
  match s.scan.fifo with
  | [] => s
  | e :: rest =>
    if assemblerTakes s && e.tag == t then takeEntry e (s.setScan { s.scan with fifo := rest }) else s

/-- The end of a stall: the work that stopped is taken up, the freed slot being secured by it (R18, R50). -/
def resumeStall (s : State) : State :=
  if s.scan.stall.waiting then
    let s1 := s.setScan { s.scan with stall := Stall.clear }
    match s.scan.suspended with
    | none => s1
    | some x => finishEntry x.entry (continueEntry x.entry x.bitsUnpacked s1)
  else s

/-! ## Arrivals (R2) -/

/-- The loss mark of the newest entry set. -/
def markLoss : List FifoEntry → List FifoEntry
  | [] => []
  | [e] => [{ e with loss := true }]
  | e :: rest => e :: markLoss rest

/-- A transfer arriving at Scan Input (R2). -/
def arrive (t : Tag) (w : Word32) (s : State) : State :=
  if s.pass.state = .running then
    if s.scan.fifo.length < Config.fifoDepth then s.setScan { s.scan with fifo := s.scan.fifo ++ [⟨t, w, false⟩] }
    else raise .link (s.setScan { s.scan with fifo := markLoss s.scan.fifo })
  else s

/-- TRANSFER: a tagged transfer on the scan link (R2). -/
def execTransfer (t : Tag) (w : Word32) (s : State) : Host.Outcome State Fault Refusal := completed (arrive t w s)

/-- HEAD_TAKEN: the assembler takes a HEAD entry (R5). -/
def execHeadTaken (s : State) : Host.Outcome State Fault Refusal := completed (takeOldest .head s)

/-- DATA_TAKEN: the assembler takes a DATA entry (R6). -/
def execDataTaken (s : State) : Host.Outcome State Fault Refusal := completed (takeOldest .data s)

/-- MARK_TAKEN: the assembler takes a MARK entry (R8). -/
def execMarkTaken (s : State) : Host.Outcome State Fault Refusal := completed (takeOldest .mark s)

/-- END_TAKEN: the assembler takes an END entry (R9). -/
def execEndTaken (s : State) : Host.Outcome State Fault Refusal := completed (takeOldest .close s)

end Sys2Proof.Machine
end

