-- ==== Sys2Proof/Machine/Detect.lean ====
section
/-! DEFINITION. Detection (section 5.1): the examination of one position (R76 to R84, R86, R87) and the presenting of a
closed span (R85, R88, R89). The commands CLICK_LISTING and VOID_LISTING stand in Machine/Engine.lean. -/

namespace Sys2Proof.Machine

/-- The detector of a lane changed. -/
def State.mapDetector (s : State) (l : Lane) (f : Detector → Detector) : State :=
  s.mapEngine l (fun e => { e with detector := f e.detector })

/-- The position is void on a lane (R77). -/
def voidAt (s : State) (l : Lane) (q : Position) : Bool := originalAt s l q == some Config.voidValue

/-- The position lies in the span of a present GAP entry (R77). -/
def inGapSpan (s : State) (q : Position) : Bool :=
  s.catalogue.entries.any (fun e => e.kind == .gap && entryCovers s e q)

/-- The kinds whose spans block positions of a lane for detection, and clash with its clicks: GAP, SPLICE and the lane's
VOID (R78, R85). -/
def Entry.blocks (e : Entry) (l : Lane) : Bool :=
  e.kind == .gap || e.kind == .splice || (e.kind == .void && e.lane == some l)

/-- The position is blocked for a lane (R78). -/
def blockedAt (s : State) (l : Lane) (q : Position) : Bool :=
  voidAt s l q || s.catalogue.entries.any (fun e => e.blocks l && entryCovers s e q)

/-- The original value at a position of the pass that is in the window and not blocked. -/
def soundAt (s : State) (l : Lane) (q : Position) : Option Int :=
  if inPass s q && !blockedAt s l q then (originalAt s l q).map BitVec.toInt else none

/-- The residual r[q] = x[q] − 2x[q−1] + x[q−2], where it is computable (R78). -/
def residual (s : State) (l : Lane) (q : Position) : Option Int :=
  match soundAt s l q, soundAt s l (q - 1#40), soundAt s l (q - 2#40) with
  | some a, some b, some c => some (a - 2 * b + c)
  | _, _, _ => none

/-- The threshold T = max(Tmin, floor(a × ratio / 16)) (R80). -/
def clickThreshold (p : LaneSettings) (envelope : Nat) : Nat := max p.tmin (envelope * p.clickRatio / 16)

/-- The envelope updated with a residual magnitude: a + floor((|r| − a) / 64) (R79). -/
def envelopeAfter (a magnitude : Nat) : Nat := ((a : Int) + shiftRight ((magnitude : Int) - a) 6).toNat

/-- A span put into the unlisted carry, in ascending start order (R89). -/
def insertCarried (s : State) (c : CarriedSpan) : List CarriedSpan → List CarriedSpan
  | [] => [c]
  | a :: rest =>
    if passOffset s c.start < passOffset s a.start then c :: a :: rest else a :: insertCarried s c rest

/-- A closed span listed, or applied as an unlisted repair where the catalogue is full (R60, R64, R89). -/
def presentSpan (l : Lane) (kind : EntryKind) (start : Position) (span : Nat) (peak : Option Nat) (d : Decision)
    (s : State) : State :=
  if catalogueFull s then
    let s1 := s.mapDetector l (fun x => { x with carry := insertCarried s ⟨kind, start, span, d⟩ x.carry })
    raise .unlisted (s1.mapBlocks (fun b =>
      if (b.number : Int) = blockNumberOf s start then b.mapRecord l LaneRecord.countUnlisted else b))
  else
    listEntry
      { number := 0, kind := kind, lane := some l, start := start, span := some span, peak := peak
        decision := some d, decidedBy := .default, reported := none, fixed := false } s

/-- The default decision of a click span (R88). -/
def clickDecision (p : LaneSettings) (span : Nat) : Decision :=
  if span ≤ p.maxspan then .repair else if p.longPolicy = 0 then .pass else .hold

/-- The default decision of a void span (R88). -/
def voidDecision (p : LaneSettings) (span : Nat) : Decision := if span ≤ p.maxspan then .repair else .hold

/-- The length of a click span after the clash cut, or none where it is dropped (R85). -/
def clashCut (s : State) (l : Lane) (start : Position) (span : Nat) : Option Nat :=
  let clash := s.catalogue.entries.filter (fun e => e.blocks l && entryOverlaps s e start span)
  if clash.any (fun e => entryCovers s e start) then none
  else
    match (clash.map (fun e => passOffset s e.start)).min? with
    | none => some span
    | some x => some (x - passOffset s start).toNat

/-- A click span closed and presented, after the clash cut (R85, R88). -/
def presentClick (l : Lane) (p : LaneSettings) (start : Position) (span peak : Nat) (s : State) : State :=
  match clashCut s l start span with
  | none => s
  | some n => presentSpan l .click start n (some peak) (clickDecision p n) s

/-- A void span presented (R86, R88). -/
def presentVoid (l : Lane) (p : LaneSettings) (start : Position) (span : Nat) (s : State) : State :=
  presentSpan l .void start span none (voidDecision p span) s

/-- What one examination came to: nothing closed, a click span closed, a void run ended, or the detection of the block
ended (R76). -/
inductive Seen where
  | nothing | click | void | over
  deriving DecidableEq, Repr

/-- The length of a click span that ends by its guard or by a position whose residual is not computable: from n through
max(n, m − 2) (R82). -/
def clickSpan (start last : Position) : Nat := (max 0 (distance start last - 2)).toNat + 1

/-- Whether a position lies past the end of the pass, the final block being set (R87). -/
def pastEnd (s : State) (q : Position) : Bool := s.window.finalBlock.isSome && !inPass s q

/-- The detector moved on by one position, in a new state. -/
def Detector.consume (d : Detector) (x : Detecting) : Detector := { d with state := x, next := d.next + 1#40 }

/-- The examination of the detector's next position in IDLE (R77, R79, R81). -/
def examineIdle (l : Lane) (p : LaneSettings) (s : State) : State :=
  let d := (s.engines.get l).detector
  let q := d.next
  if voidAt s l q && !inGapSpan s q then s.mapDetector l (fun x => x.consume (.void q 1))
  else
    match residual s l q with
    | none => s.mapDetector l (fun x => x.consume .idle)
    | some r =>
      if clickThreshold p d.envelope < r.natAbs then s.mapDetector l (fun x => x.consume (.click q q r.natAbs 0))
      else s.mapDetector l (fun x => { x.consume .idle with envelope := envelopeAfter d.envelope r.natAbs })

/-- The examination of the detector's next position in CLICK (R77, R81 to R84). -/
def examineClick (l : Lane) (p : LaneSettings) (n m : Position) (peak guardCount : Nat) (s : State) : State × Seen :=
  let d := (s.engines.get l).detector
  let q := d.next
  match residual s l q with
  | none => (presentClick l p n (clickSpan n m) peak (s.mapDetector l (fun x => { x with state := .idle })), .click)
  | some r =>
    if clickThreshold p d.envelope < r.natAbs then
      if distance n q ≤ 256 then (s.mapDetector l (fun x => x.consume (.click n q (max peak r.natAbs) 0)), .nothing)
      else
        (presentClick l p n 255 peak
          (s.mapDetector l (fun x => { x.consume .idle with envelope := r.natAbs })), .click)
    else if p.guardLen ≤ guardCount + 1 then
      (presentClick l p n (clickSpan n m) peak (s.mapDetector l (fun x => x.consume .idle)), .click)
    else (s.mapDetector l (fun x => x.consume (.click n m peak (guardCount + 1))), .nothing)

/-- The examination of the detector's next position in VOID (R77, R86). -/
def examineVoid (l : Lane) (p : LaneSettings) (start : Position) (length : Nat) (s : State) : State × Seen :=
  let q := (s.engines.get l).detector.next
  if voidAt s l q && !inGapSpan s q then
    if Config.blockSize ≤ length + 1 then
      (presentVoid l p start (length + 1) (s.mapDetector l (fun x => x.consume .idle)), .void)
    else (s.mapDetector l (fun x => x.consume (.void start (length + 1))), .nothing)
  else (presentVoid l p start length (s.mapDetector l (fun x => { x with state := .idle })), .void)

/-- One elementary step of the detection of block b by a lane: the check for the end (R76), the end of the pass (R87), or
the examination of one position (R77). In IDLE the detection is over once the next position lies past the last position of
the block, as far as the block's first position is from it modulo 2^40. -/
def detectStep (l : Lane) (p : LaneSettings) (b : Block) (s : State) : State × Seen :=
  let d := (s.engines.get l).detector
  let q := d.next
  match d.state with
  | .idle =>
    if (b.fill : Int) ≤ distance b.first q then (s, .over) else (examineIdle l p s, .nothing)
  | .click n m peak g =>
    if pastEnd s q then
      (presentClick l p n (min (distance n q).toNat 255) peak (s.mapDetector l (fun x => { x with state := .idle })), .click)
    else examineClick l p n m peak g s
  | .void start length =>
    if pastEnd s q then
      (presentVoid l p start length (s.mapDetector l (fun x => { x with state := .idle })), .void)
    else examineVoid l p start length s

end Sys2Proof.Machine
end

