-- ==== Sys2Proof/Machine/Mend.lean ====
section
/-! DEFINITION. The mend stage: the treatment source of a position and its precedence (R91, R92, R135, R137), anchors (R93,
R136), the bridge and the other treatments (R94, R95) and the void guard (R96). -/

namespace Sys2Proof.Machine

/-- What treats a position: a span with its key, start, length and decision. -/
structure Treatment where
  key      : SpanKey
  span     : Nat
  decision : Decision
  deriving DecidableEq, Repr

/-- The precedence of a kind, the highest first: GAP, VOID, SPLICE, CLICK (R92). -/
def EntryKind.precedence : EntryKind → Nat
  | .gap => 4
  | .void => 3
  | .splice => 2
  | .click => 1
  | .slip => 0

/-- The treatment that an entry supplies, if it has a span and a decision. -/
def Entry.treatment (e : Entry) : Option Treatment :=
  match e.span, e.decision with
  | some n, some d => some ⟨⟨e.kind, e.start⟩, n, d⟩
  | _, _ => none

/-- The treatments of the present entries that cover a position on a lane (R91). -/
def entryTreatments (s : State) (l : Lane) (p : Position) : List Treatment :=
  (s.catalogue.entries.filter (fun e => e.onLane l && entryCovers s e p)).filterMap Entry.treatment

/-- The treatments of the unlisted carry of a lane that cover a position (R91). -/
def carriedTreatments (s : State) (l : Lane) (p : Position) : List Treatment :=
  ((s.engines.get l).detector.carry.filter (fun c => covers (passOffset s c.start) c.span (passOffset s p))).map
    (fun c => ⟨⟨c.kind, c.start⟩, c.span, c.decision⟩)

/-- The treatment of the highest kind (R92). -/
def highest (ts : List Treatment) : Option Treatment :=
  ts.foldl (fun best t =>
    match best with
    | none => some t
    | some b => if b.key.kind.precedence < t.key.kind.precedence then some t else some b) none

/-- The anchors of a span of a lane: the mended value before it, the original value after it where that is written and not
void, and the right anchor in the place of a missing left anchor (R93). -/
def readAnchors (s : State) (l : Lane) (start : Position) (span : Nat) : Anchors :=
  let after := start + BitVec.ofNat 40 span
  let right := (if inPass s after then originalAt s l after else none).filter (fun v => v != Config.voidValue)
  let left := if start = s.pass.start then none else mendedAt s l (start - 1#40)
  { left := left.orElse (fun _ => right), right := right }

/-- The bridge value at offset i of a span of n positions between anchors a and b (R94). -/
def bridge (a b : Int) (n i : Nat) : Int :=
  a + ((b - a) * (i + 1) + ((n + 1) / 2 : Nat)) / ((n : Int) + 1)

/-- The void guard: the mended value of the position before, or 0 (R96). -/
def voidGuard (s : State) (l : Lane) (p : Position) : Sample :=
  if p = s.pass.start then 0#24 else (mendedAt s l (p - 1#40)).getD 0#24

/-- The original value of a position, or the void guard where it is void (R91, R96). -/
def keptOriginal (s : State) (l : Lane) (p : Position) : Sample :=
  match originalAt s l p with
  | some v => if v = Config.voidValue then voidGuard s l p else v
  | none => 0#24

/-- The mended value that a treatment gives at a position (R94, R95, R96). -/
def treatedValue (s : State) (l : Lane) (p : Position) (t : Treatment) (a : Anchors) : Sample :=
  match t.decision, a.left, a.right with
  | .pass, _, _ => keptOriginal s l p
  | .repair, some x, some y => BitVec.ofInt 24 (bridge x.toInt y.toInt t.span (distance t.key.start p).toNat)
  | .repair, some x, none => x
  | .hold, some x, _ => x
  | .repair, none, _ => 0#24
  | .hold, none, _ => 0#24

/-- The anchors of a span in this render: those read before, or those read now (R93). -/
def anchorsOf (s : State) (l : Lane) (known : List SpanAnchors) (t : Treatment) : Anchors :=
  match known.find? (fun a => a.key == t.key) with
  | some a => a.anchors
  | none => readAnchors s l t.key.start t.span

/-- The anchors known in this render once the position covered by the given treatments is reached: those of a span are read
when its first position is (R93, R136). -/
def learnAnchors (s : State) (l : Lane) (known : List SpanAnchors) : List Treatment → List SpanAnchors
  | [] => known
  | t :: rest =>
    if known.any (fun a => a.key == t.key) then learnAnchors s l known rest
    else learnAnchors s l (known ++ [⟨t.key, readAnchors s l t.key.start t.span⟩]) rest

/-- The mend of one position of a block by a lane, with the anchors known before and after. A live render writes every
position (R91); a re-render writes those that present entries cover and keeps the rest (R135, R137). -/
def mendPosition (live : Bool) (l : Lane) (b : Block) (offset : Nat) (known : List SpanAnchors) (s : State) :
    State × List SpanAnchors :=
  let p := positionAt b offset
  let listed := entryTreatments s l p
  let carried := if live then carriedTreatments s l p else []
  let known' := learnAnchors s l known (listed ++ carried)
  match (highest listed).orElse (fun _ => highest carried) with
  | some t => (writeSample s b .mended l offset (treatedValue s l p t (anchorsOf s l known' t)), known')
  | none => (if live then writeSample s b .mended l offset (keptOriginal s l p) else s, known')

/-- The unlisted carry once the mend stage of the live render of a block is over: the spans that end in the block or before
it leave (R89). -/
def trimCarry (l : Lane) (b : Block) (s : State) : State :=
  s.mapDetector l (fun d =>
    { d with carry := d.carry.filter (fun c =>
        decide (passOffset s b.first + b.fill < passOffset s c.start + c.span)) })

end Sys2Proof.Machine
end

