-- ==== Sys2Proof/Machine/Hum.lean ====
section
/-! DEFINITION. The hum stage (chapter 6): harmonics and coefficient slots (R99, R100, R103), increments and phases (R101,
R102), the estimate and the output (R106, R107), adaptation and its suspension (R108, R109), and one position (R105). -/

namespace Sys2Proof.Machine

/-- The two hum families (R99). -/
inductive Family where
  | a | b
  deriving DecidableEq, Repr

/-- A harmonic in use: its family and its number (R99). -/
structure Harmonic where
  family : Family
  number : Nat
  deriving DecidableEq, Repr

/-- The harmonics in use under the settings taken (R99). -/
def harmonicsInUse (p : LaneSettings) : List Harmonic :=
  (List.range p.harmonicsA).map (fun i => ⟨.a, i + 1⟩) ++ (List.range p.harmonicsB).map (fun i => ⟨.b, i + 1⟩)

/-- The slot of a harmonic: h − 1 in family A, 12 − h in family B (R100). -/
def Harmonic.slot (h : Harmonic) : Nat :=
  match h.family with
  | .a => h.number - 1
  | .b => 12 - h.number

/-- A zero coefficient pair. -/
def Coefficient.zero : Coefficient := ⟨0#32, 0#32⟩

/-- The twelve slots with every unused slot at (0, 0) (R100). -/
def clearUnused (p : LaneSettings) (slots : List Coefficient) : List Coefficient :=
  (List.range 12).map (fun i =>
    if i < p.harmonicsA ∨ 12 ≤ i + p.harmonicsB then slots.getD i Coefficient.zero else Coefficient.zero)

/-- The phase increment of a ratio under an S8: floor((ρ 2^24 + S8) / (2 S8)) (R101). -/
def increment (rho s8 : Nat) : Nat := (rho * 2 ^ 24 + s8) / (2 * s8)

/-- Both increments under the settings taken and an S8 (R101). -/
def incrementsFor (p : LaneSettings) (s8 : Nat) : Increments := ⟨increment p.rhoA s8, increment p.rhoB s8⟩

/-- The increment of a family; absent increments are never used (R101). -/
def HumState.incOf (h : HumState) : Family → Nat
  | .a => (h.inc.map (fun i => i.a)).getD 0
  | .b => (h.inc.map (fun i => i.b)).getD 0

/-- The phase of a harmonic: (h φ) mod 2^32 (R102). -/
def HumState.phaseOf (h : HumState) (x : Harmonic) : Nat :=
  match x.family with
  | .a => (x.number * h.phaseA.toNat) % 2 ^ 32
  | .b => (x.number * h.phaseB.toNat) % 2 ^ 32

/-- Whether a harmonic in use is active: h inc < 2^31 (R103). -/
def HumState.isActive (h : HumState) (x : Harmonic) : Bool := decide (x.number * h.incOf x.family < 2 ^ 31)

/-- The harmonics in use that are active (R103). -/
def activeHarmonics (p : LaneSettings) (h : HumState) : List Harmonic := (harmonicsInUse p).filter h.isActive

/-- The coefficient pair of a harmonic. -/
def HumState.coefficient (h : HumState) (x : Harmonic) : Coefficient := h.slots.getD x.slot Coefficient.zero

/-- acc: the sum over the active harmonics of c cos + s sin (R106). -/
def estimateSum (p : LaneSettings) (h : HumState) : Int :=
  ((activeHarmonics p h).map (fun x =>
    (h.coefficient x).c.toInt * cosOf (h.phaseOf x) + (h.coefficient x).s.toInt * sinOf (h.phaseOf x))).sum

/-- est = (acc + 2^30) shift right 31 (R106). -/
def estimate (p : LaneSettings) (h : HumState) : Int := shiftRight (estimateSum p h + 2 ^ 30) 31

/-- One coefficient updated: sat32(c + ((e t 2) shift right m)) (R108). -/
def adaptOne (c : BitVec 32) (e t : Int) (m : Nat) : BitVec 32 :=
  BitVec.ofInt 32 (sat32 (c.toInt + shiftRight (e * t * 2) m))

/-- The slots with the coefficients of every active harmonic updated (R108). -/
def adaptSlots (p : LaneSettings) (h : HumState) (e : Int) : List Coefficient :=
  (activeHarmonics p h).foldl (fun slots x =>
    let k := h.coefficient x
    slots.set x.slot
      ⟨adaptOne k.c e (cosOf (h.phaseOf x)) p.adaptShift, adaptOne k.s e (sinOf (h.phaseOf x)) p.adaptShift⟩) h.slots

/-- Both family phases advanced (R102). -/
def HumState.advance (h : HumState) : HumState :=
  { h with
    phaseA := h.phaseA + BitVec.ofNat 32 (h.incOf .a)
    phaseB := h.phaseB + BitVec.ofNat 32 (h.incOf .b) }

/-- One tracker event applied: the lock state and S8 in force, and both increments at an ACCEPT or LOCK (R101, R105). -/
def HumState.applyEvent (p : LaneSettings) (h : HumState) (k : TrackerEventKind) : HumState :=
  { h with
    point := h.point.after k
    inc := match k with
      | .accept s8 => some (incrementsFor p s8)
      | .lock s8 => some (incrementsFor p s8)
      | .holdover => h.inc }

/-- The hum state at the start of the hum stage of a render of a block (R100, R114). -/
def HumState.load (p : LaneSettings) (b : Block) (x : Snapshot) : HumState :=
  { phaseA := x.phaseA, phaseB := x.phaseB, point := b.start, slots := clearUnused p x.slots
    inc := match b.start.lock, b.start.s8 with
      | .unlocked, _ => none
      | _, some s8 => some (incrementsFor p s8)
      | _, none => none }

/-- Adaptation is suspended at a position of a lane: its original value is void, or a present entry with decision REPAIR or
HOLD covers it (R109). -/
def adaptationSuspended (s : State) (l : Lane) (q : Position) : Bool :=
  voidAt s l q ||
    s.catalogue.entries.any (fun e =>
      (e.decision == some .repair || e.decision == some .hold) && e.onLane l && entryCovers s e q)

/-- One position of the hum stage: the events at its offset are applied, and the output and the next hum state follow from
the mended value x (R105 to R113). -/
def humPosition (p : LaneSettings) (events : List TrackerEventKind) (suspended : Bool) (x : Int) (h0 : HumState) :
    Int × HumState :=
  let h := events.foldl (HumState.applyEvent p) h0
  match h.point.lock with
  | .unlocked => (x, h)
  | .locked =>
    let e := clampInt Config.fullScale (x - estimate p h)
    let h' := if suspended then h else { h with slots := adaptSlots p h e }
    (e, h'.advance)
  | .holdover => (clampInt Config.fullScale (x - estimate p h), h.advance)

/-- The tracker events of a block at an offset, in list order (R105). -/
def eventsAt (b : Block) (offset : Nat) : List TrackerEventKind :=
  (b.events.filter (fun e => e.offset == offset)).map (fun e => e.kind)

end Sys2Proof.Machine
end

