-- ==== Sys2Proof/Machine/Hiss.lean ====
section
/-! DEFINITION. The hiss stage (chapter 7): band split (R120), envelope (R121), threshold (R122), gain (R123), output
(R124), and the learn of a lane's hiss floor (R127 to R132). -/

namespace Sys2Proof.Machine

/-- Q = floor(F open / 16) (R122). -/
def hissThreshold (p : LaneSettings) : Nat := p.floor * p.openRatio / 16

/-- The hiss state at the start of the hiss stage of a render (R119). -/
def HissState.load (p : LaneSettings) (r : LaneRecord) : HissState :=
  { lp := r.snapshot.lp, env := r.snapshot.env, threshold := hissThreshold p, learnFlag := r.learnFlag }

/-- The low band after a position: lp + ((y − lp) shift right k) (R120). -/
def lowBand (p : LaneSettings) (lp y : Int) : Int := lp + shiftRight (y - lp) p.crossover

/-- The envelope after a position: env + ((|high| − env) shift right s), s the attack shift on a rise and the release shift
otherwise (R121). -/
def hissEnvelope (p : LaneSettings) (env magnitude : Nat) : Nat :=
  let s := if env < magnitude then p.attack else p.release
  ((env : Int) + shiftRight ((magnitude : Int) - env) s).toNat

/-- The gain of the high band (R123). -/
def hissGain (p : LaneSettings) (x : HissState) (env : Nat) : Nat :=
  if x.threshold = 0 ∨ x.threshold ≤ env ∨ x.learnFlag = true then 32768
  else max p.gmin (32768 * env / x.threshold)

/-- The restored value: clamp(lp + floor((high g + 16384) / 32768), ±8388607) (R124). -/
def restoredValue (lp high : Int) (g : Nat) : Int :=
  clampInt Config.fullScale (lp + (high * g + 16384) / 32768)

/-- One position of the hiss stage: the restored value and the next hiss state from the hum output y (R118). -/
def hissPosition (p : LaneSettings) (y : Int) (x : HissState) : Sample × HissState :=
  let lp := lowBand p x.lp.toInt y
  let high := y - lp
  let env := hissEnvelope p x.env.toNat high.natAbs
  (BitVec.ofInt 24 (restoredValue lp high (hissGain p x env)),
    { x with lp := BitVec.ofInt 24 lp, env := BitVec.ofNat 25 env })

/-- The learn of a lane changed. -/
def State.mapLearn (s : State) (l : Lane) (f : Learn → Learn) : State :=
  s.mapEngine l (fun e => { e with learn := f e.learn })

/-- The envelope of a position of block k's live render added to the learn, where block k is the counted block (R128). -/
def learnPosition (l : Lane) (k env : Nat) (s : State) : State :=
  s.mapLearn l (fun x =>
    if x.counted = some k then { x with sum := x.sum + env, count := x.count + 1 } else x)

/-- The end of a learn: with a count of 1 or more the mean envelope is written to P15 and LEARNED is raised; the learn
becomes IDLE (R129, R130). -/
def endLearn (l : Lane) (s : State) : State :=
  let x := (s.engines.get l).learn
  if x.count = 0 then s.mapLearn l (fun _ => Learn.idle)
  else
    raise .learned (s.mapEngine l (fun e =>
      { e with settings := { e.settings with floor := min 8388607 (x.sum / x.count) }, learn := Learn.idle }))

/-- The completion of the live render of block k, as the learn meets it (R129, R130). -/
def learnCompletion (l : Lane) (k : Nat) (s : State) : State :=
  let x := (s.engines.get l).learn
  if x.counted = some k then
    let s1 := s.mapLearn l (fun y => { y with counted := none, remaining := y.remaining - 1 })
    if x.remaining ≤ 1 then endLearn l s1 else s1
  else s

/-- CLOSE, as the learn of a lane meets it: an ACTIVE learn ends at once, or becomes ENDING while a block is counted
(R130). -/
def learnClose (s : State) (l : Lane) : State :=
  let x := (s.engines.get l).learn
  match x.state, x.counted with
  | .active, none => endLearn l s
  | .active, some _ => s.mapLearn l (fun y => { y with state := .ending, remaining := 1 })
  | .idle, _ => s
  | .ending, _ => s

end Sys2Proof.Machine
end

