-- ==== Sys2Proof/Machine/Engine.lean ====
section
/-! DEFINITION. The lane engines' work: its selection and taking (R40, R41, R134), one elementary step of a render in flight
(R76, R91, R105, R118, R134 to R139), and its completion (R42 to R44, R52, R115, R125, R141 to R143); the commands
LIVE_RENDER_TAKE, RE_RENDER_TAKE, CLICK_LISTING, VOID_LISTING, LIVE_RENDER_COMPLETE and RE_RENDER_COMPLETE. -/

namespace Sys2Proof.Machine

/-! ## Taking work (R40, R41, R134) -/

/-- The current work of a lane. -/
def workOf (s : State) (l : Lane) : Work := (s.engines.get l).work

/-- The lane's engine has no current work. -/
def engineIdle (s : State) (l : Lane) : Bool :=
  match workOf s l with
  | .none => true
  | .live _ _ => false
  | .reRender _ _ => false

/-- The lane's current work is the live render of block k. -/
def workingLive (s : State) (l : Lane) (k : Nat) : Bool :=
  match workOf s l with
  | .live j _ => j == k
  | .none => false
  | .reRender _ _ => false

/-- The lowest-numbered block whose record for the lane is STALE (R40, R134). -/
def lowestStale (s : State) (l : Lane) : Option Block :=
  s.window.blocks.find? (fun b => b.renderOf l == some .stale)

/-- The lowest-numbered block whose record for the lane is PENDING (R40). -/
def lowestPending (s : State) (l : Lane) : Option Block :=
  s.window.blocks.find? (fun b => b.renderOf l == some .pending)

/-- The predecessor condition of a live render: block k − 1 is not in the window, or DONE for the lane (R40). -/
def predecessorReady (s : State) (l : Lane) (k : Nat) : Bool :=
  s.window.blocks.all (fun b => b.number + 1 != k || b.renderOf l == some .done)

/-- The successor condition of a live render: block k + 1 is FULL, HELD or RELEASED, or block k is the final block (R40). -/
def successorReady (s : State) (k : Nat) : Bool :=
  s.window.blocks.any (fun b => b.number == k + 1 && b.state != .filling) || s.window.finalBlock == some k

/-- The block that the lane's engine may take for a live render now (R40). -/
def liveChoice (s : State) (l : Lane) : Option Block :=
  if engineIdle s l && (lowestStale s l).isNone then
    match lowestPending s l with
    | none => none
    | some b => if b.state == .full && predecessorReady s l b.number && successorReady s b.number then some b else none
  else none

/-- The block that the lane's engine may take for a re-render now (R40, R134). -/
def reRenderChoice (s : State) (l : Lane) : Option Block := if engineIdle s l then lowestStale s l else none

/-- A render as it begins, with the settings the engine reads at the take (R41, R163). -/
def Flight.begin (p : LaneSettings) (stage : WorkStage) : Flight :=
  { settings := p, stage := stage, anchors := [], hum := none, hiss := none }

/-- The lane's current work replaced. -/
def State.setWork (s : State) (l : Lane) (w : Work) : State := s.mapEngine l (fun e => { e with work := w })

/-- The lane record of a block becomes WORKING with dirty clear, and receives the learn flag where `flag` says so (R41,
R128). -/
def LaneRecord.take (flag : Bool) (r : LaneRecord) : LaneRecord :=
  { r with render := .working, dirty := false, learnFlag := r.learnFlag || flag }

/-- Block b taken for a live render; an ACTIVE learn flags and counts it (R41, R128). -/
def takeLive (l : Lane) (b : Block) (s : State) : State :=
  let e := s.engines.get l
  let active := e.learn.state == .active
  let s1 := s.mapBlock b.number (fun c => c.mapRecord l (LaneRecord.take active))
  let s2 := s1.setWork l (.live b.number (Flight.begin e.settings .detect))
  if active then s2.mapLearn l (fun x => { x with counted := some b.number }) else s2

/-- Block b taken for a re-render (R41, R134). -/
def takeReRender (l : Lane) (b : Block) (s : State) : State :=
  let e := s.engines.get l
  (s.mapBlock b.number (fun c => c.mapRecord l (LaneRecord.take false))).setWork l
    (.reRender b.number (Flight.begin e.settings (.mend 0)))

/-! ## One elementary step of the work in flight -/

/-- The flight of the lane's work replaced. -/
def State.setFlight (s : State) (l : Lane) (f : Flight) : State :=
  match workOf s l with
  | .none => s
  | .live k _ => s.setWork l (.live k f)
  | .reRender k _ => s.setWork l (.reRender k f)

/-- The hum and hiss stages begin: both states are loaded from the snapshot at block start (R114, R119). -/
def beginSound (l : Lane) (b : Block) (f : Flight) (s : State) : State :=
  match b.lanes.get l with
  | none => s
  | some r =>
    s.setFlight l
      { f with
        stage := .sound 0
        hum := some (HumState.load f.settings b r.snapshot)
        hiss := some (HissState.load f.settings r) }

/-- One position of the hum and hiss stages: the restored value written, and in a live render the envelope handed to the
learn (R105, R118, R128). -/
def soundPosition (live : Bool) (l : Lane) (b : Block) (offset : Nat) (f : Flight) (s : State) : State :=
  match f.hum, f.hiss with
  | some h, some x =>
    let q := positionAt b offset
    let m := (readSample s b .mended l offset).toInt
    let (y, h') := humPosition f.settings (eventsAt b offset) (adaptationSuspended s l q) m h
    let (v, x') := hissPosition f.settings y x
    let s1 := writeSample s b .restored l offset v
    let s2 := s1.setFlight l { f with stage := .sound (offset + 1), hum := some h', hiss := some x' }
    if live then learnPosition l b.number x'.env.toNat s2 else s2
  | _, _ => s

/-- One elementary step of the detection of a live render; when it ends, the mend stage begins (R76, R91). -/
def detectWork (l : Lane) (b : Block) (f : Flight) (s : State) : State × Seen :=
  match detectStep l f.settings b s with
  | (s1, .over) => (s1.setFlight l { f with stage := .mend 0 }, .over)
  | (s1, .nothing) => (s1, .nothing)
  | (s1, .click) => (s1, .click)
  | (s1, .void) => (s1, .void)

/-- One elementary step of a render of block b. -/
def renderStep (live : Bool) (l : Lane) (b : Block) (f : Flight) (s : State) : State :=
  match f.stage with
  | .detect => (detectWork l b f s).1
  | .mend offset =>
    if b.fill ≤ offset then beginSound l b f (if live then trimCarry l b s else s)
    else
      let (s1, known) := mendPosition live l b offset f.anchors s
      s1.setFlight l { f with stage := .mend (offset + 1), anchors := known }
  | .sound offset =>
    if b.fill ≤ offset then s.setFlight l { f with stage := .finished }
    else soundPosition live l b offset f s
  | .finished => s

/-- One elementary step of the lane's work in flight. -/
def workStep (l : Lane) (s : State) : State :=
  match workOf s l with
  | .none => s
  | .live k f =>
    match blockNumbered s k with
    | none => s
    | some b => renderStep true l b f s
  | .reRender k f =>
    match blockNumbered s k with
    | none => s
    | some b => renderStep false l b f s

/-- The stage that the lane's work has reached. -/
def stageOf (s : State) (l : Lane) : Option WorkStage :=
  match workOf s l with
  | .none => none
  | .live _ f => some f.stage
  | .reRender _ f => some f.stage

/-- Up to n elementary steps of the lane's work, stopping when all positions are done. -/
def advance (l : Lane) : Nat → State → State
  | 0, s => s
  | n + 1, s => if stageOf s l = some .finished then s else advance l n (workStep l s)

/-- More elementary steps than any render takes: detection examines at most 4096 positions twice, and the mend and sound
stages take 2049 steps each. -/
def workFuel : Nat := 16384

/-! ## Completion (R42 to R44, R52, R142, R143) -/

/-- The input peak of a lane of a block (R52). -/
def inputPeakOf (s : State) (b : Block) (l : Lane) : Option Nat :=
  (((List.range b.fill).map (fun o => readSample s b .original l o)).filter (fun v => v != Config.voidValue)).map
    (fun v => v.toInt.natAbs) |>.max?

/-- The output peak of a lane of a block (R52). -/
def outputPeakOf (s : State) (b : Block) (l : Lane) : Nat :=
  (List.range b.fill).foldl (fun m o => max m (readSample s b .restored l o).toInt.natAbs) 0

/-- The snapshot that the engine's hum and hiss state makes (R115, R125). -/
def Flight.snapshot (f : Flight) : Option Snapshot :=
  match f.hum, f.hiss with
  | some h, some x => some { phaseA := h.phaseA, phaseB := h.phaseB, slots := h.slots, lp := x.lp, env := x.env }
  | _, _ => none

/-- The lane record at a completion: DONE, or STALE where dirty was set; dirty clear; the peaks written (R42, R52). -/
def LaneRecord.complete (input : Option Nat) (output : Nat) (r : LaneRecord) : LaneRecord :=
  { r with
    render := if r.dirty then .stale else .done
    dirty := false, inputPeak := input, outputPeak := output }

/-- What every completion writes: the lane record of block b, the snapshot of block b + 1 where it is in the window, and no
current work (R42, R43, R52, R141). -/
def writeCompletion (l : Lane) (b : Block) (f : Flight) (s : State) : State :=
  let s1 := s.mapBlock b.number (fun c => c.mapRecord l (LaneRecord.complete (inputPeakOf s b l) (outputPeakOf s b l)))
  let s2 :=
    match f.snapshot with
    | none => s1
    | some x => s1.mapBlock (b.number + 1) (fun c => c.mapRecord l (fun r => { r with snapshot := x }))
  s2.setWork l .none

/-- Whether block k has had its first render by every lane: no record PENDING, or WORKING under a live render (R44). -/
def firstRendersDone (s : State) (b : Block) : Bool :=
  Lane.all.all (fun l =>
    match b.renderOf l with
    | none => true
    | some .pending => false
    | some .working => !workingLive s l b.number
    | some .done => true
    | some .stale => true)

/-- A FULL block with all its first renders done becomes HELD, and the release rule is evaluated (R44, R46). -/
def makeHeld (k : Nat) (s : State) : State :=
  match blockNumbered s k with
  | none => s
  | some b =>
    if b.state = .full ∧ firstRendersDone s b = true then
      releaseRule (raise .held (s.mapBlock k (fun c => if c.state = .full then { c with state := .held } else c)))
    else s

/-- The record of a lane in block k is DONE. -/
def recordDone (s : State) (l : Lane) (k : Nat) : Bool := (blockNumbered s k).any (fun b => b.renderOf l == some .done)

/-- The completion of a live render whose positions are all done (R42). -/
def finishLive (l : Lane) (s : State) : State :=
  match workOf s l with
  | .live k f =>
    match blockNumbered s k with
    | some b =>
      if f.stage = .finished then
        let s1 := makeHeld k (learnCompletion l k (writeCompletion l b f s))
        if recordDone s1 l k then releaseRule s1 else s1
      else s
    | none => s
  | .none => s
  | .reRender _ _ => s

/-- RENDERED at a completion that leaves the record DONE and the lane without a STALE record (R143). -/
def raiseRendered (l : Lane) (done : Bool) (s : State) : State :=
  if done && (lowestStale s l).isNone then raise .rendered s else s

/-- The completion of a re-render whose positions are all done (R42, R142). -/
def finishReRender (l : Lane) (s : State) : State :=
  match workOf s l with
  | .reRender k f =>
    match blockNumbered s k with
    | some b =>
      if f.stage = .finished then
        let s1 := writeCompletion l b f s
        let done := recordDone s1 l k
        raiseRendered l done (if done then releaseRule s1 else s1)
      else s
    | none => s
  | .none => s
  | .live _ _ => s

/-! ## Listings within detection (R85, R86) -/

/-- The work up to the next span that detection closes, where that span is of the kind wanted; none where detection closes
a span of the other kind first, ends, or is not under way. -/
def runToSpan (l : Lane) (want : Seen) : Nat → State → Option State
  | 0, _ => none
  | n + 1, s =>
    match workOf s l with
    | .live k f =>
      match blockNumbered s k, f.stage with
      | some b, .detect =>
        let (s1, seen) := detectWork l b f s
        if seen = want then some s1 else if seen = .nothing then runToSpan l want n s1 else none
      | _, _ => none
    | .none => none
    | .reRender _ _ => none

/-! ## The commands -/

/-- LIVE_RENDER_TAKE: the lane's engine takes a block for a live render, or waits (R40, R41). -/
def execLiveRenderTake (l : Lane) (s : State) : Host.Outcome State Fault Refusal :=
  completed (match liveChoice s l with
    | some b => takeLive l b s
    | none => s)

/-- RE_RENDER_TAKE: the lane's engine takes a block for a re-render, or takes nothing (R134). -/
def execReRenderTake (l : Lane) (s : State) : Host.Outcome State Fault Refusal :=
  completed (match reRenderChoice s l with
    | some b => takeReRender l b s
    | none => s)

/-- CLICK_LISTING: the lane's detection goes on to the close of a click span and presents it (R85, R89). Where the next span
that detection closes is no click, nothing happens (log entry 5). -/
def execClickListing (l : Lane) (s : State) : Host.Outcome State Fault Refusal :=
  completed ((runToSpan l .click workFuel s).getD s)

/-- VOID_LISTING: the lane's detection goes on to the end of a void run and presents it (R86, R89). Where the next span that
detection closes is no void run, nothing happens (log entry 5). -/
def execVoidListing (l : Lane) (s : State) : Host.Outcome State Fault Refusal :=
  completed ((runToSpan l .void workFuel s).getD s)

/-- LIVE_RENDER_COMPLETE: the live render in flight goes on by some elementary steps, or to its end and completion (R42). -/
def execLiveRenderComplete (l : Lane) (w : Progress) (s : State) : Host.Outcome State Fault Refusal :=
  completed (match workOf s l, w with
    | .live _ _, .part n => advance l n s
    | .live _ _, .rest => finishLive l (advance l workFuel s)
    | .none, _ => s
    | .reRender _ _, _ => s)

/-- RE_RENDER_COMPLETE: the re-render in flight goes on by some elementary steps, or to its end and completion (R142). -/
def execReRenderComplete (l : Lane) (w : Progress) (s : State) : Host.Outcome State Fault Refusal :=
  completed (match workOf s l, w with
    | .reRender _ _, .part n => advance l n s
    | .reRender _ _, .rest => finishReRender l (advance l workFuel s)
    | .none, _ => s
    | .live _ _, _ => s)

end Sys2Proof.Machine
end

