-- ==== Sys2Proof/WellFormed.lean ====
section
/-! DEFINITION. Which commands can reach the part: a SHORT frame carries at least one clock pulse and stops before its
code or arguments are complete (R166, R168), and an UNKNOWN frame's code names no request (R167). Every other operand is
held to its range by its type. -/

namespace Sys2Proof

/-- The bytes of a SHORT frame: at least one clock pulse, and neither a whole request nor an unknown code (R168). -/
def ShortArgs.wellFormed (a : ShortArgs) : Bool :=
  classify a.bytes == .incomplete && !(a.bytes.isEmpty && a.odd.isNone)

/-- A code that names no request (R167). -/
def unknownCodeWellFormed (c : Byte) : Bool := (Request.ofCode c).isNone

/-- The check on the arguments that a frame carries. -/
def Frame.argsSatisfy {α : Type} (ok : α → Bool) : Frame α → Bool
  | .whole a _ => ok a
  | .receive a => ok a
  | .reply _ => true
  | .finish => true

/-- A command that can reach the part. -/
def Instr.wellFormed : Instr → Bool
  | .short _ f => f.argsSatisfy ShortArgs.wellFormed
  | .unknownCode _ f => f.argsSatisfy unknownCodeWellFormed
  | _ => true

end Sys2Proof
end

