-- ==== Sys2Proof/Machine/Hub.lean ====
section
/-! DEFINITION. Frames and acceptance: the frame states (R166 to R168), the status byte and the reply (R169, R170), the checks
of rights and pass state (R172, R174), and the two shared shapes of a request command, one taken at frame end and one that
reads. UNKNOWN, SHORT and SELECT_PULSE_WITHOUT_CLOCK have their meanings here. -/

namespace Sys2Proof.Machine

/-! ## Acceptance (R167, R172, R174) -/

/-- The resource a request requires; a lane code above 3 names none, and an open request requires none (R167, R172). -/
def requiredResource (r : Request) (lane : Byte) : Option Resource :=
  match r with
  | .openPass | .closePass | .abort | .splice => some .pass
  | .lput | .learn => (Lane.ofNat? lane.toNat).map Resource.lane
  | .hold | .rls | .cdec => some .review
  | .dack | .dnext => some .drain
  | .grant | .rstp => some .chief
  | .cseek | .evclr | .evmask | .cwalk | .lget | .stat | .rights | .events | .caps | .probe => none

/-- Whether a request is accepted in a pass state (R174). -/
def acceptedIn (r : Request) (x : PassState) : Bool :=
  match r with
  | .openPass => x == .idle
  | .closePass | .splice | .learn | .rls => x == .running
  | .cdec => x == .running || x == .closing
  | .abort | .lput | .lget | .hold | .dnext | .dack | .grant | .rstp | .rights | .cseek | .cwalk | .events | .evclr
  | .evmask | .stat | .caps | .probe => true

/-- Whether the port owns what the request requires (R172). -/
def hasRight (s : State) (p : Port) (r : Request) (lane : Byte) : Bool :=
  match requiredResource r lane with
  | none => true
  | some res => s.rights.owner res == p

/-- The first two stages of the check: DENIED, STATE, or DONE where neither refuses (R174). -/
def acceptance (s : State) (p : Port) (r : Request) (lane : Byte) : Result :=
  if !hasRight s p r lane then .denied else if !acceptedIn r s.pass.state then .state else .done

/-! ## Frames (R166 to R170) -/

/-- The port with a new frame: the received bytes and the frame state they lead to, and no reply yet (R166). -/
def PortState.startFrame (q : PortState) (x : FrameState) (bytes : List Byte) (odd : Option Nibble) : PortState :=
  { q with
    frame := x, received := bytes, odd := odd, pulses := 0, byte := 0#8, item := [], walked := none
    verdict := .done, drain := none, driven := [] }

/-- The port at the end of its frame, with a last result (R166, R168). The drain read is discarded (chapter 11). -/
def PortState.endFrame (q : PortState) (r : Result) : PortState :=
  { q with
    frame := .deselected, received := [], odd := none, lastResult := r, pulses := 0, byte := 0#8, item := []
    walked := none, verdict := .done, drain := none }

/-- Whether the port is in REPLYING for a request. -/
def inFrame (s : State) (p : Port) (r : Request) : Bool :=
  (s.ports.get p).frame == .replying && (s.ports.get p).received.head? == some r.code

/-- Whether the port is DESELECTED, so that select can fall. -/
def deselected (s : State) (p : Port) : Bool := (s.ports.get p).frame == .deselected

/-- Select falls, and the code and all argument bytes of a request are received (R166). -/
def receiveRequest (p : Port) (r : Request) (args : List Byte) (s : State) : State :=
  s.mapPort p (fun q => q.startFrame .replying (r.code :: args) none)

/-- What the data of a reply come from: the item that begins with data byte k, with any change its first byte makes, and the
change that the end of data byte k makes (R170). -/
structure Source where
  item    : Port → Nat → State → State × List Byte
  shifted : Port → Nat → State → State

/-- The byte to be driven, and the bytes left of its item. -/
def setByte (p : Port) (b : Byte) (rest : List Byte) (s : State) : State :=
  s.mapPort p (fun q => { q with byte := b, item := rest })

/-- The next byte of a reply composed, as its first nibble is shifted out: the status byte first, then the data (R169,
R170). -/
def composeByte (src : Source) (p : Port) (s : State) : State :=
  let q := s.ports.get p
  if q.pulses / 2 = 0 then setByte p (statusByte s p) [] s
  else
    match q.item with
    | b :: rest => setByte p b rest s
    | [] =>
      match src.item p (q.pulses / 2 - 1) s with
      | (s1, []) => setByte p 0#8 [] s1
      | (s1, b :: rest) => setByte p b rest s1

/-- A nibble driven. -/
def PortState.drive (q : PortState) (n : Nibble) : PortState :=
  { q with pulses := q.pulses + 1, driven := q.driven ++ [n] }

/-- One clock pulse in REPLYING: the high nibble of a new byte, or the low nibble of the byte being shifted (R166). -/
def shiftNibble (src : Source) (p : Port) (s : State) : State :=
  let k := (s.ports.get p).pulses
  if k % 2 = 0 then
    (composeByte src p s).mapPort p (fun q => q.drive (q.byte.extractLsb' 4 4))
  else
    let s1 := s.mapPort p (fun q => q.drive (q.byte.extractLsb' 0 4))
    if k / 2 = 0 then s1 else src.shifted p (k / 2 - 1) s1

/-- Clock pulses in REPLYING. -/
def shiftNibbles (src : Source) (p : Port) : Nat → State → State
  | 0, s => s
  | n + 1, s => shiftNibbles src p n (shiftNibble src p s)

/-- The frame of a port ended with a result (R168). -/
def endFrame (p : Port) (r : Result) (s : State) : State := s.mapPort p (fun q => q.endFrame r)

/-- The argument bytes that the port has received. -/
def receivedArgs (s : State) (p : Port) : List Byte := (s.ports.get p).received.tail

/-- The reply of a request taken at frame end, and of an unknown code: the status byte again and again (R167, R169). -/
def statusSource : Source :=
  { item := fun p _ s => (s, [statusByte s p]), shifted := fun _ _ s => s }

/-! ## Requests taken at frame end -/

/-- The end of a frame of a request taken at frame end: the checks of rights and pass state, then the taking, and the last
result (R168, R174). -/
def finishCommand {α : Type} (p : Port) (r : Request) (dec : List Byte → Option α) (lane : α → Byte)
    (take : α → State → State × Result) (s : State) : State :=
  if inFrame s p r then
    match dec (receivedArgs s p) with
    | none => s
    | some a =>
      match acceptance s p r (lane a) with
      | .done => let x := take a s; endFrame p x.2 x.1
      | refusal => endFrame p refusal s
  else s

/-- A frame, or a part of one, of a request taken at frame end. A part that the port's frame state does not allow carries
nothing (log entry 5). -/
def commandFrame {α : Type} (p : Port) (r : Request) (enc : α → List Byte) (dec : List Byte → Option α)
    (lane : α → Byte) (take : α → State → State × Result) (f : Frame α) (s : State) : State :=
  match f with
  | .whole a n =>
    if deselected s p then
      finishCommand p r dec lane take (shiftNibbles statusSource p n (receiveRequest p r (enc a) s))
    else s
  | .receive a => if deselected s p then receiveRequest p r (enc a) s else s
  | .reply n => if inFrame s p r then shiftNibbles statusSource p n s else s
  | .finish => finishCommand p r dec lane take s

/-- The lane argument of a request that names none. -/
def noLane {α : Type} (_ : α) : Byte := 0#8

/-! ## Reads -/

/-- The data of a read, or zero bytes where its check refused it (R170). -/
def readSource {α : Type} (dec : List Byte → Option α) (data : α → Source) : Source :=
  { item := fun p k s =>
      match (s.ports.get p).verdict, dec (receivedArgs s p) with
      | .done, some a => (data a).item p k s
      | _, _ => (s, [0#8])
    shifted := fun p k s =>
      match (s.ports.get p).verdict, dec (receivedArgs s p) with
      | .done, some a => (data a).shifted p k s
      | _, _ => s }

/-- The start of a read: the code and arguments are received, and the read is checked (R170). -/
def receiveRead {α : Type} (p : Port) (r : Request) (enc : α → List Byte) (check : α → State → State × Result) (a : α)
    (s : State) : State :=
  let x := check a (receiveRequest p r (enc a) s)
  x.1.mapPort p (fun q => { q with verdict := x.2 })

/-- The end of a read's frame: its last result is DONE, or the refusal it met (R168). -/
def finishRead (p : Port) (r : Request) (s : State) : State :=
  if inFrame s p r then endFrame p (s.ports.get p).verdict s else s

/-- A frame, or a part of one, of a read. A part that the port's frame state does not allow carries nothing (log entry 5). -/
def readFrame {α : Type} (p : Port) (r : Request) (enc : α → List Byte) (dec : List Byte → Option α)
    (check : α → State → State × Result) (data : α → Source) (f : Frame α) (s : State) : State :=
  match f with
  | .whole a n =>
    if deselected s p then finishRead p r (shiftNibbles (readSource dec data) p n (receiveRead p r enc check a s)) else s
  | .receive a => if deselected s p then receiveRead p r enc check a s else s
  | .reply n => if inFrame s p r then shiftNibbles (readSource dec data) p n s else s
  | .finish => finishRead p r s

/-- The check of a read that is open to every port and accepted in every pass state (R170). -/
def openCheck {α : Type} (_ : α) (s : State) : State × Result := (s, .done)

/-- Data that are read and change nothing: the item that begins with byte k; past their end they read 0 (R170). -/
def plainData (item : Port → Nat → State → List Byte) : Source :=
  { item := fun p k s => (s, item p k s), shifted := fun _ _ s => s }

/-! ## Frames that carry no request (R166 to R168) -/

/-- Whether the port is in REPLYING after an unknown code. -/
def inUnknownFrame (s : State) (p : Port) : Bool :=
  (s.ports.get p).frame == .replying && classify (s.ports.get p).received == .unknown

/-- A frame with a request code that names no request, or a part of one (R167). A code that names a request makes no such
frame. -/
def unknownFrame (p : Port) (f : Frame Byte) (s : State) : State :=
  match f with
  | .whole c n =>
    if deselected s p && (Request.ofCode c).isNone then
      endFrame p .unknown (shiftNibbles statusSource p n (s.mapPort p (fun q => q.startFrame .replying [c] none)))
    else s
  | .receive c =>
    if deselected s p && (Request.ofCode c).isNone then s.mapPort p (fun q => q.startFrame .replying [c] none) else s
  | .reply n => if inUnknownFrame s p then shiftNibbles statusSource p n s else s
  | .finish => if inUnknownFrame s p then endFrame p .unknown s else s

/-- A frame that ends before its code or arguments are complete, or a part of one (R168). Bytes that make a whole request,
an unknown code or no clock pulse at all make no such frame. -/
def shortFrame (p : Port) (f : Frame ShortArgs) (s : State) : State :=
  match f with
  | .whole a _ =>
    if deselected s p && ShortArgs.wellFormed a then
      endFrame p .short (s.mapPort p (fun q => q.startFrame .receiving a.bytes a.odd))
    else s
  | .receive a =>
    if deselected s p && ShortArgs.wellFormed a then s.mapPort p (fun q => q.startFrame .receiving a.bytes a.odd) else s
  | .reply _ => s
  | .finish => if (s.ports.get p).frame = .receiving then endFrame p .short s else s

/-- A select pulse without a clock pulse: received bytes are emptied as select falls, the port returns to DESELECTED, and
the last result stays (R166). -/
def pulseSelect (p : Port) (s : State) : State :=
  if deselected s p then s.mapPort p (fun q => q.startFrame .deselected [] none) else s

/-- UNKNOWN (R167). -/
def execUnknownCode (p : Port) (f : Frame Byte) (s : State) : Host.Outcome State Fault Refusal :=
  completed (unknownFrame p f s)

/-- SHORT (R168). -/
def execShort (p : Port) (f : Frame ShortArgs) (s : State) : Host.Outcome State Fault Refusal :=
  completed (shortFrame p f s)

/-- SELECT_PULSE_WITHOUT_CLOCK (R166). -/
def execSelectPulse (p : Port) (s : State) : Host.Outcome State Fault Refusal := completed (pulseSelect p s)

end Sys2Proof.Machine
end

