-- ==== Sys2Proof/Machine/Pass.lean ====
section
/-! DEFINITION. The Pass Controller and the lane settings (chapter 9): OPEN, CLOSE, ABORT, SPLICE, RUN_OUT_END, LPUT, LGET,
and LEARN (section 7.6). -/

namespace Sys2Proof.Machine

/-! ## OPEN (R152, R153) -/

/-- The pass parameters of an OPEN as clamped, or none where an argument is refused (R152). -/
def openParameters (a : OpenArgs) : Option PassControl :=
  if a.laneMask = 0#8 ∨ 15 < a.laneMask.toNat then none
  else
    match formatWidth a.format, formatOrder a.format with
    | some w, some o =>
      let lo := clampNat 128 65535 a.perfMin.toNat
      some
        { state := .running, laneMask := a.laneMask.extractLsb' 0 4, width := w, byteOrder := o, start := a.start
          perfMin := lo, perfMax := clampNat lo 65535 a.perfMax.toNat
          spliceSpan := clampNat 4 48 a.spliceSpan.toNat, runOutEnded := false }
    | _, _ => none

/-- Whether a clamp of R152 changed a value. -/
def openClamped (a : OpenArgs) (x : PassControl) : Bool :=
  x.perfMin != a.perfMin.toNat || x.perfMax != a.perfMax.toNat || x.spliceSpan != a.spliceSpan.toNat

/-- A lane engine at OPEN: settings kept, detector at the start position, no work, no learn (R98, R133, R153). -/
def LaneEngine.openPass (start : Position) (e : LaneEngine) : LaneEngine :=
  { settings := e.settings, detector := { state := .idle, next := start, envelope := 0, carry := [] }
    work := .none, learn := Learn.idle }

/-- Every block of the part set up for a new pass (R22, R34, R53, R75, R98, R153). -/
def setUpPass (x : PassControl) (s : State) : State :=
  { s with
    pass := x
    scan := { ScanInput.reset with ready := s.scan.ready, next := x.start }
    tracker := Tracker.reset
    window := { s.window with blocks := [], counter := 0, finalBlock := none, releaseMark := none }
    catalogue := Catalogue.reset
    engines := s.engines.mapIdx (fun _ e => e.openPass x.start) }

/-- OPEN taken, once rights and pass state have passed (R152, R153). -/
def takeOpen (a : OpenArgs) (s : State) : State × Result :=
  match openParameters a with
  | none => (s, .arg)
  | some x => (setUpPass x s, doneOrClamped (openClamped a x))

/-- OPEN (R153). -/
def execOpenPass (p : Port) (f : Frame OpenArgs) (s : State) : Host.Outcome State Fault Refusal :=
  completed (commandFrame p .openPass OpenArgs.toBytes OpenArgs.ofBytes noLane takeOpen f s)

/-! ## CLOSE and the end of the run-out (R20, R33, R39, R154, R155) -/

/-- CLOSE taken (R154): CLOSING, the release rule, and every lane's learn. READY falls with the pass state (R3). -/
def takeClose (_ : Unit) (s : State) : State × Result :=
  let s1 := releaseRule { s with pass := { s.pass with state := .closing } }
  (Lane.all.foldl learnClose s1, .done)

/-- CLOSE (R154). -/
def execClosePass (p : Port) (f : Frame Unit) (s : State) : Host.Outcome State Fault Refusal :=
  completed (commandFrame p .closePass noArgs noArgsOf noLane takeClose f s)

/-- The packet at the end of the run-out: an open one is truncated, a held header dropped (R20). -/
def truncatePacket (s : State) : State :=
  let s1 :=
    match s.scan.packet with
    | .opened | .damaged => linkFault s
    | .header => raise .link s
    | .none | .discard => s
  s1.setScan { s1.scan with packet := .none, heldWord := none, context := none }

/-- The FILLING block at the end of the run-out: FULL with its fill count, its late tracker events removed, or freed with
its entries where it holds no position (R20, R33, R39, R67). -/
def endFilling (s : State) : State :=
  match fillingBlock s with
  | none => s
  | some b =>
    if b.fill = 0 then
      let s1 := removeEntriesOf b.number s
      s1.setBlocks (s1.window.blocks.filter (fun c => c.state != .filling))
    else
      s.mapBlocks (fun c =>
        if c.state = .filling then
          { c with state := .full, events := c.events.filter (fun e => decide (e.offset < c.fill)) }
        else c)

/-- Whether the run-out ends: CLOSING, the run-out not yet ended, the FIFO empty and no stall (R20). -/
def runOutDue (s : State) : Bool :=
  s.pass.state == .closing && !s.pass.runOutEnded && s.scan.fifo.isEmpty && !s.scan.stall.waiting

/-- The end of the run-out, as one event (R20, R33, R39, R155). -/
def endRunOut (s : State) : State :=
  let s1 := endFilling (truncatePacket s)
  let s2 : State :=
    { s1 with
      pass := { s1.pass with runOutEnded := true }
      tracker := s1.tracker.dropHeld
      window := { s1.window with finalBlock := (s1.window.blocks.map (fun b => b.number)).max? } }
  reportReleased s2

/-- RUN_OUT_END (R155); before the run-out is over, nothing happens (log entry 5). -/
def execRunOutEnd (s : State) : Host.Outcome State Fault Refusal := completed (if runOutDue s then endRunOut s else s)

/-! ## ABORT (R157) -/

/-- A lane engine at ABORT: detector IDLE, carry empty, work abandoned, learn cancelled (R51, R98, R117, R132). -/
def LaneEngine.abandon (e : LaneEngine) : LaneEngine :=
  { e with detector := { e.detector with state := .idle, carry := [] }, work := .none, learn := Learn.idle }

/-- A port's drain read cut: from here on its frame reads 0 (R187). -/
def PortState.cutDrain (q : PortState) : PortState := { q with drain := q.drain.map (fun d => { d with cut := true }) }

/-- The abort, as one event across the part (R157). -/
def abandonPass (s : State) : State :=
  { s with
    pass := { s.pass with state := .idle, runOutEnded := false }
    scan := { ScanInput.reset with ready := s.scan.ready, next := s.scan.next }
    tracker := Tracker.reset
    window := { s.window with blocks := [], finalBlock := none }
    catalogue := { s.catalogue with entries := [], cursors := PerPort.same Cursor.atEnd }
    engines := s.engines.mapIdx (fun _ e => e.abandon)
    ports := s.ports.map PortState.cutDrain }

/-- ABORT taken; in IDLE it changes nothing (R151, R157). -/
def takeAbort (_ : Unit) (s : State) : State × Result :=
  (if s.pass.state = .idle then s else abandonPass s, .done)

/-- ABORT (R157). -/
def execAbort (p : Port) (f : Frame Unit) (s : State) : Host.Outcome State Fault Refusal :=
  completed (commandFrame p .abort noArgs noArgsOf noLane takeAbort f s)

/-! ## SPLICE (R62, R90, R146, R159) -/

/-- The start of the splice span of a mark position (R90). -/
def spliceStart (s : State) (mark : Position) : Position := mark - BitVec.ofNat 40 (s.pass.spliceSpan / 2)

/-- Every lane record of a block is PENDING, or WORKING under a live render (R159). -/
def untouchedBlock (s : State) (b : Block) : Bool :=
  Lane.all.all (fun l =>
    match b.renderOf l with
    | none => true
    | some .pending => true
    | some .working => workingLive s l b.number
    | some .done => false
    | some .stale => false)

/-- The splice horizon as a pass offset, if the window holds a block (R159). -/
def spliceHorizon (s : State) : Option Int :=
  match s.window.blocks.find? (untouchedBlock s) with
  | some b => some (passOffset s b.first)
  | none => s.window.blocks.getLast?.map (fun b => passOffset s b.first + Config.blockSize)

/-- Whether a splice start lies behind the horizon (R159). -/
def behindHorizon (s : State) (start : Position) : Bool :=
  match spliceHorizon s with
  | none => false
  | some h => decide (passOffset s start < h)

/-- Whether a splice start lies after the last position of the newest block, or the window holds no block (R62). -/
def beyondWindow (s : State) (start : Position) : Bool :=
  match s.window.blocks.getLast? with
  | none => true
  | some b => decide (passOffset s b.first + Config.blockSize ≤ passOffset s start)

/-- Whether a splice span would overlap a CLICK of an active lane or a SPLICE (R62). -/
def spliceConflicts (s : State) (start : Position) : Bool :=
  s.catalogue.entries.any (fun e =>
    (e.kind == .splice || (e.kind == .click && (activeLanes s).any (fun l => e.lane == some l))) &&
      entryOverlaps s e start s.pass.spliceSpan)

/-- The SPLICE entry listed, with its stale requests to every active lane (R62, R146). -/
def listSplice (start : Position) (s : State) : State :=
  let s1 := listEntry
    { number := 0, kind := .splice, lane := none, start := start, span := some s.pass.spliceSpan, peak := none
      decision := some .repair, decidedBy := .default, reported := none, fixed := false } s
  staleRequests (activeLanes s) (blockNumberOf s start).toNat s1

/-- SPLICE taken: the first refusal met, or the entry listed (R62, R159). -/
def takeSplice (mark : Position) (s : State) : State × Result :=
  let start := spliceStart s mark
  if behindHorizon s start then (s, .late)
  else if beyondWindow s start then (s, .arg)
  else if spliceConflicts s start then (s, .conflict)
  else if catalogueFull s then (s, .full)
  else (listSplice start s, .done)

/-- SPLICE (R159). -/
def execSplice (p : Port) (f : Frame Position) (s : State) : Host.Outcome State Fault Refusal :=
  completed (commandFrame p .splice bytes5 positionArgOf noLane takeSplice f s)

/-! ## Lane settings (R161, R162, R164) -/

/-- LPUT taken (R161, R162). -/
def takeLput (a : LputArgs) (s : State) : State × Result :=
  match Lane.ofNat? a.lane.toNat with
  | none => (s, .arg)
  | some l =>
    match storedValue (s.engines.get l).settings a.parameter.toNat a.value.toNat with
    | none => (s, .arg)
    | some v =>
      (s.mapEngine l (fun e => { e with settings := e.settings.put a.parameter.toNat v }),
        doneOrClamped (v != a.value.toNat))

/-- LPUT (R161). -/
def execLput (p : Port) (f : Frame LputArgs) (s : State) : Host.Outcome State Fault Refusal :=
  completed (commandFrame p .lput LputArgs.toBytes LputArgs.ofBytes LputArgs.lane takeLput f s)

/-- The value that LGET returns: the stored value, or 0 where lane or parameter names none (R164). -/
def lgetValue (s : State) (a : LgetArgs) : Word32 :=
  match Lane.ofNat? a.lane.toNat with
  | none => 0#32
  | some l => BitVec.ofNat 32 (((s.engines.get l).settings.get a.parameter.toNat).getD 0)

/-- The data of LGET: one item of four bytes (R164, R193). -/
def lgetData (a : LgetArgs) : Source := plainData (fun _ k s => if k = 0 then bytes4 (lgetValue s a) else [0#8])

/-- LGET (R164). -/
def execLget (p : Port) (f : Frame LgetArgs) (s : State) : Host.Outcome State Fault Refusal :=
  completed (readFrame p .lget LgetArgs.toBytes LgetArgs.ofBytes openCheck lgetData f s)

/-! ## LEARN (R127) -/

/-- LEARN taken: the learn of the lane starts, or starts again (R127, R131). -/
def takeLearn (a : LearnArgs) (s : State) : State × Result :=
  match Lane.ofNat? a.lane.toNat with
  | none => (s, .arg)
  | some l =>
    if l ∈ activeLanes s ∧ a.blocks ≠ 0#8 then
      let n := min Config.maxLearn a.blocks.toNat
      (s.mapLearn l (fun _ => { state := .active, remaining := n, sum := 0, count := 0, counted := none }),
        doneOrClamped (n != a.blocks.toNat))
    else (s, .arg)

/-- LEARN (R127). -/
def execLearn (p : Port) (f : Frame LearnArgs) (s : State) : Host.Outcome State Fault Refusal :=
  completed (commandFrame p .learn LearnArgs.toBytes LearnArgs.ofBytes LearnArgs.lane takeLearn f s)

end Sys2Proof.Machine
end

