-- ==== Sys2Proof/Machine/Review.lean ====
section
/-! DEFINITION. Review of the catalogue and of release: HOLD (R48), RLS (R49), CDEC (R72, R73), CSEEK (R70) and CWALK (R71),
with the bytes of a catalogue entry (R194). -/

namespace Sys2Proof.Machine

/-! ## HOLD and RLS -/

/-- HOLD taken: the review hold, clamped to 48, and the release rule (R48). -/
def takeHold (h : Byte) (s : State) : State × Result :=
  let v := min Config.maxHold h.toNat
  (releaseRule { s with window := { s.window with reviewHold := v } }, doneOrClamped (v != h.toNat))

/-- HOLD (R48). -/
def execHold (p : Port) (f : Frame Byte) (s : State) : Host.Outcome State Fault Refusal :=
  completed (commandFrame p .hold byteArg byteArgOf noLane takeHold f s)

/-- The release mark after an RLS: the argument, or the larger of the mark and the argument (R49). -/
def raisedMark (mark : Option Nat) (n : Nat) : Nat :=
  match mark with
  | none => n
  | some m => max m n

/-- RLS taken (R49). -/
def takeRls (n : Word32) (s : State) : State × Result :=
  (releaseRule { s with window := { s.window with releaseMark := some (raisedMark s.window.releaseMark n.toNat) } }, .done)

/-- RLS (R49). -/
def execRls (p : Port) (f : Frame Word32) (s : State) : Host.Outcome State Fault Refusal :=
  completed (commandFrame p .rls bytes4 wordArgOf noLane takeRls f s)

/-! ## CDEC -/

/-- Whether every position of a span is written and free of voids on every active lane (R72). -/
def spanFreeOfVoids (s : State) (start : Position) (n : Nat) : Bool :=
  (List.range n).all (fun i =>
    (activeLanes s).all (fun l =>
      match originalAt s l (start + BitVec.ofNat 40 i) with
      | none => false
      | some v => v != Config.voidValue))

/-- Whether an entry may not hold a decision (R72). -/
def decisionForced (s : State) (e : Entry) (d : Decision) : Bool :=
  match e.kind, d with
  | .slip, _ => true
  | .void, .pass => true
  | .gap, .pass => true
  | .splice, .pass => !spanFreeOfVoids s e.start (e.span.getD 0)
  | _, _ => false

/-- The lanes that a change of an entry's decision affects (R73). -/
def affectedLanes (s : State) (e : Entry) : List Lane :=
  match e.lane with
  | some l => [l]
  | none => activeLanes s

/-- An entry's decision set, decided by REVIEW, with the stale requests of a change (R73). -/
def setDecision (e : Entry) (d : Decision) (s : State) : State :=
  let s1 := s.setEntries (s.catalogue.entries.map (fun x =>
    if x.number = e.number then { x with decision := some d, decidedBy := .review } else x))
  if e.decision = some d then s1 else staleRequests (affectedLanes s e) (blockNumberOf s e.start).toNat s1

/-- CDEC taken: the first condition met gives the result (R72, R73). -/
def takeCdec (a : CdecArgs) (s : State) : State × Result :=
  match Decision.ofCode a.decision with
  | none => (s, .arg)
  | some d =>
    match entryNumbered s a.number.toNat with
    | none => (s, .noent)
    | some e =>
      if e.fixed then (s, .late)
      else if decisionForced s e d then (s, .forced)
      else (setDecision e d s, .done)

/-- CDEC (R73). -/
def execCdec (p : Port) (f : Frame CdecArgs) (s : State) : Host.Outcome State Fault Refusal :=
  completed (commandFrame p .cdec CdecArgs.toBytes CdecArgs.ofBytes noLane takeCdec f s)

/-! ## Cursors -/

/-- The port's cursor replaced. -/
def State.setCursor (s : State) (p : Port) (c : Cursor) : State :=
  { s with catalogue := { s.catalogue with cursors := s.catalogue.cursors.set p c } }

/-- The target that a CSEEK mode gives, as an entry number or END; none where mode NUMBER names no present entry (R70). -/
def seekTarget (s : State) (m : SeekMode) (a : CseekArgs) : Option (Option Nat) :=
  let es := s.catalogue.entries
  match m with
  | .first => some (es.head?.map (fun e => e.number))
  | .last => some (es.getLast?.map (fun e => e.number))
  | .number => (entryNumbered s a.number.toNat).map (fun e => some e.number)
  | .position =>
    some ((es.find? (fun e => decide (passOffset s a.position ≤ passOffset s e.start))).map (fun e => e.number))

/-- CSEEK taken by a port (R70). -/
def takeCseek (p : Port) (a : CseekArgs) (s : State) : State × Result :=
  match SeekMode.ofCode a.mode, Direction.ofCode a.direction with
  | some m, some d =>
    match seekTarget s m a with
    | some t => (s.setCursor p ⟨t, d⟩, .done)
    | none => (s, .noent)
  | _, _ => (s, .arg)

/-- CSEEK (R70). -/
def execCseek (p : Port) (f : Frame CseekArgs) (s : State) : Host.Outcome State Fault Refusal :=
  completed (commandFrame p .cseek CseekArgs.toBytes CseekArgs.ofBytes noLane (takeCseek p) f s)

/-- Bytes 12..15 of an entry item: the peak of a CLICK, the reported low 32 bits of a SLIP, else 0 (R194). -/
def Entry.tailWord (e : Entry) : Word32 :=
  match e.kind with
  | .click => BitVec.ofNat 32 (e.peak.getD 0)
  | .slip => (e.reported.map (fun r => r.reported)).getD 0#32
  | .void | .gap | .splice => 0#32

/-- Byte 3 of an entry item: the lane, with bit 7 where it is present (R194). -/
def Entry.laneByte (e : Entry) : Byte :=
  match e.lane with
  | none => 0#8
  | some l => BitVec.ofNat 8 l.toNat ||| 0x80#8

/-- Byte 4 of an entry item: decision, decided by REVIEW, fixed (R194). -/
def Entry.decisionByte (e : Entry) : Byte :=
  decisionCode e.decision ||| (if e.decidedBy = .review then 0x10#8 else 0#8) ||| (if e.fixed then 0x80#8 else 0#8)

/-- The 16 bytes of an entry item (R194). -/
def Entry.toBytes (e : Entry) : List Byte :=
  bytes2 (BitVec.ofNat 16 e.number) ++ [e.kind.code, e.laneByte, e.decisionByte] ++ bytes5 e.start ++
    bytes2 (BitVec.ofNat 16 (e.span.getD 0)) ++ bytes4 e.tailWord

/-- The filler item of a CWALK at END (R71). -/
def fillerItem : List Byte := List.replicate 16 0#8

/-- The first byte of a CWALK item: the cursor's target is copied, or the item is a filler (R71). -/
def walkItem (p : Port) (s : State) : State × List Byte :=
  match ((s.catalogue.cursors.get p).target).bind (entryNumbered s) with
  | none => (s.mapPort p (fun q => { q with walked := none }), fillerItem)
  | some e => (s.mapPort p (fun q => { q with walked := some e }), e.toBytes)

/-- The entry that follows a copied entry in a direction, in the catalogue as it stands (R71). -/
def walkNext (s : State) (e : Entry) : Direction → Option Entry
  | .forward => s.catalogue.entries.find? (fun x => entryBefore s e x)
  | .backward => (s.catalogue.entries.filter (fun x => entryBefore s x e)).getLast?

/-- The end of data byte k of a CWALK: at the sixteenth byte of an item copied from an entry the cursor moves (R71). DESIGN
CHOICE (log entry 28): it moves by the place of the copied entry as R71 says, even where the removal of that entry has put
the cursor at END meanwhile, where R69 would leave it. -/
def walkShifted (p : Port) (k : Nat) (s : State) : State :=
  if k % 16 = 15 then
    match (s.ports.get p).walked with
    | none => s
    | some e =>
      let c := s.catalogue.cursors.get p
      (s.setCursor p { c with target := (walkNext s e c.direction).map (fun x => x.number) }).mapPort p
        (fun q => { q with walked := none })
  else s

/-- The data of CWALK (R71). -/
def cwalkData (_ : Unit) : Source := { item := fun p _ s => walkItem p s, shifted := walkShifted }

/-- CWALK (R71). -/
def execCwalk (p : Port) (f : Frame Unit) (s : State) : Host.Outcome State Fault Refusal :=
  completed (readFrame p .cwalk noArgs noArgsOf openCheck cwalkData f s)

end Sys2Proof.Machine
end

