-- ==== Sys2Proof/Machine/Drain.lean ====
section
/-! DEFINITION. Draining (chapter 11): the drain record (R183 to R185, R195), DNEXT (R182, R186, R187) and DACK (R188, R50). -/

namespace Sys2Proof.Machine

/-! ## The drain record -/

/-- A 24-bit magnitude field. -/
def peakBytes (n : Nat) : List Byte := bytes3 (BitVec.ofNat 24 n)

/-- The lane record of a lane in a block. -/
def Block.record (b : Block) (l : Lane) : Option LaneRecord := b.lanes.get l

/-- The entries of a block, in catalogue order (R184). -/
def entriesOf (s : State) (b : Block) : List Entry := s.catalogue.entries.filter (startsIn s b.number)

/-- The presence byte of the input peaks (R195). -/
def peakPresence (b : Block) : Byte :=
  BitVec.ofNat 8 ((Lane.all.map (fun l =>
    match (b.record l).bind (fun r => r.inputPeak) with
    | some _ => 2 ^ l.toNat
    | none => 0)).sum)

/-- The 46 bytes of the drain record header (R183, R195). -/
def drainHeader (s : State) (selector : Nat) (b : Block) : List Byte :=
  [1#8, BitVec.ofNat 8 selector] ++ bytes4 (BitVec.ofNat 32 b.number) ++ bytes5 b.first ++
    bytes2 (BitVec.ofNat 16 b.fill) ++ [s.pass.laneMask.zeroExtend 8, b.filmByte, peakPresence b] ++
    Lane.all.map (fun l => BitVec.ofNat 8 (((b.record l).map (fun r => r.unlisted)).getD 0)) ++
    Lane.all.flatMap (fun l => peakBytes (((b.record l).bind (fun r => r.inputPeak)).getD 0)) ++
    Lane.all.flatMap (fun l => peakBytes (((b.record l).map (fun r => r.outputPeak)).getD 0)) ++
    bytes2 (BitVec.ofNat 16 (entriesOf s b).length)

/-- The arrays that a selector names, in their order (R182). -/
def selectorArrays (selector : Nat) : List SampleArray :=
  match selector with
  | 0 => [.restored]
  | 1 => [.restored, .original]
  | 2 => [.restored, .mended]
  | _ => [.restored, .original, .mended]

/-- The samples of an array of a block: by offset, then by lane, three bytes each (R184). -/
def arrayBytes (s : State) (b : Block) (a : SampleArray) : List Byte :=
  (List.range b.fill).flatMap (fun o => (activeLanes s).flatMap (fun l => bytes3 (readSample s b a l o)))

/-- The drain record of a block (R183, R184). -/
def drainRecord (s : State) (selector : Nat) (b : Block) : List Byte :=
  drainHeader s selector b ++ (entriesOf s b).flatMap Entry.toBytes ++ (selectorArrays selector).flatMap (arrayBytes s b)

/-- The length of the drain record of a block: header, entries and samples (R183, R184). -/
def recordLength (s : State) (selector : Nat) (b : Block) : Nat :=
  Config.drainHeaderBytes + 16 * (entriesOf s b).length +
    3 * (activeLanes s).length * b.fill * (selectorArrays selector).length

/-! ## DNEXT -/

/-- The check of a DNEXT: DENIED, ARG, or a drain read created (R182). -/
def checkDnext (p : Port) (selector : Byte) (s : State) : State × Result :=
  match acceptance s p .dnext 0#8 with
  | .done =>
    if selector.toNat ≤ 3 then
      (s.mapPort p (fun q => { q with drain := some ⟨selector.toNat, .unchosen, 0, 0, false⟩ }), .done)
    else (s, .arg)
  | refusal => (s, refusal)

/-- The bound block chosen where it is not: the drain head as it stands, or NONE (R182), with the length of its record, the
empty record being a header alone (R185). -/
def DrainRead.bind (s : State) (d : DrainRead) : DrainRead :=
  match d.bound with
  | .unchosen =>
    match drainHead s with
    | some b => { d with bound := .block b.number, length := recordLength s d.selector b }
    | none => { d with bound := .nothing, length := Config.drainHeaderBytes }
  | .nothing => d
  | .block _ => d

/-- The record that a drain read streams: of its bound block, or all zero where the read is cut or bound to NONE (R185,
R187). -/
def DrainRead.record (s : State) (d : DrainRead) : List Byte :=
  match d.bound, d.cut with
  | .block k, false =>
    match blockNumbered s k with
    | some b => drainRecord s d.selector b
    | none => []
  | _, _ => []

/-- Data byte k of a DNEXT, counted as shifted up to the record's length, cut or not; past the end of the record it is 0
(R182, R184, R187). -/
def dnextItem (p : Port) (k : Nat) (s : State) : State × List Byte :=
  match (s.ports.get p).drain with
  | none => (s, [0#8])
  | some d0 =>
    let d := d0.bind s
    let bytes := d.record s
    (s.mapPort p (fun q => { q with drain := some { d with shifted := min d.length (k + 1) } }), [bytes.getD k 0#8])

/-- The data of DNEXT (R182). -/
def dnextData (_ : Byte) : Source := { item := dnextItem, shifted := fun _ _ s => s }

/-- DNEXT (R182). -/
def execDnext (p : Port) (f : Frame Byte) (s : State) : Host.Outcome State Fault Refusal :=
  completed (readFrame p .dnext byteArg byteArgOf (checkDnext p) dnextData f s)

/-! ## DACK -/

/-- A drain read bound to the freed block is cut (R187). -/
def PortState.cutBoundTo (k : Nat) (q : PortState) : PortState :=
  { q with drain := q.drain.map (fun d => if d.bound = .block k then { d with cut := true } else d) }

/-- The drain head freed: its slot, records and entries go, and the reads bound to it are cut (R50, R67, R187). -/
def freeBlock (b : Block) (s : State) : State :=
  let s1 := removeEntriesOf b.number s
  let s2 := s1.setBlocks (s1.window.blocks.filter (fun c => c.number != b.number))
  { s2 with ports := s2.ports.map (PortState.cutBoundTo b.number) }

/-- DACK taken: the drain head, if named, is freed; a stall ends; the pass may end (R50, R155, R156, R188). -/
def takeDack (n : Word32) (s : State) : State × Result :=
  match drainHead s with
  | none => (s, .noent)
  | some b =>
    if n.toNat = b.number then (endedToIdle (reportReleased (resumeStall (freeBlock b s))), .done) else (s, .noent)

/-- DACK (R188). -/
def execDack (p : Port) (f : Frame Word32) (s : State) : Host.Outcome State Fault Refusal :=
  completed (commandFrame p .dack bytes4 wordArgOf noLane takeDack f s)

end Sys2Proof.Machine
end

