-- ==== Sys2Proof/Machine/Service.lean ====
section
/-! DEFINITION. The Port Hub's own requests (chapter 10): GRANT (R173), RSTP (R180), RIGHTS (R171), EVENTS, EVCLR and EVMASK
(R177), STAT (R178, R196), CAPS (R179, R196), PROBE (R175), and PIN_RESET (R171, R181). -/

namespace Sys2Proof.Machine

/-! ## Rights -/

/-- GRANT taken (R173). -/
def takeGrant (a : GrantArgs) (s : State) : State × Result :=
  match Resource.ofCode a.resource, Port.ofNat? a.port.toNat with
  | some r, some p => ({ s with rights := s.rights.grant r p }, .done)
  | _, _ => (s, .arg)

/-- GRANT (R173). -/
def execGrant (p : Port) (f : Frame GrantArgs) (s : State) : Host.Outcome State Fault Refusal :=
  completed (commandFrame p .grant GrantArgs.toBytes GrantArgs.ofBytes noLane takeGrant f s)

/-- The data of RIGHTS: eight owner bytes, each an item (R171). -/
def rightsData (_ : Unit) : Source :=
  plainData (fun _ k s =>
    match Resource.all[k]? with
    | some r => [Port.code (s.rights.owner r)]
    | none => [0#8])

/-- RIGHTS (R171). -/
def execRights (p : Port) (f : Frame Unit) (s : State) : Host.Outcome State Fault Refusal :=
  completed (readFrame p .rights noArgs noArgsOf openCheck rightsData f s)

/-! ## Resets -/

/-- What RSTP restores after acting as ABORT (R180). -/
def restoreDefaults (s : State) : State :=
  { s with
    window := { s.window with reviewHold := Config.defaultHold, releaseMark := none }
    engines := s.engines.mapIdx (fun _ e => { e with settings := LaneSettings.defaults })
    ports := s.ports.map (fun q => { q with events := 0#11, mask := 0#11, lastResult := .done }) }

/-- RSTP taken (R180). -/
def takeRstp (_ : Unit) (s : State) : State × Result := (restoreDefaults (abandonPass s), .done)

/-- RSTP (R180). -/
def execRstp (p : Port) (f : Frame Unit) (s : State) : Host.Outcome State Fault Refusal :=
  completed (commandFrame p .rstp noArgs noArgsOf noLane takeRstp f s)

/-- The part after pin reset: every value of the reset tables, the rights to the port that CHIEF[1:0] names, the window
memory as it was (R53, R171, R181). -/
def pinReset (chief : BitVec 2) (s : State) : State :=
  { State.reset with
    pending := s.pending
    window := { Window.reset with memory := s.window.memory }
    rights := Rights.allTo (chiefPort chief) }

/-- PIN_RESET (R181). -/
def execPinReset (chief : BitVec 2) (s : State) : Host.Outcome State Fault Refusal := completed (pinReset chief s)

/-! ## Events -/

/-- The data of EVENTS: the event set, then the event mask, each an item of two bytes (R177). -/
def eventsData (_ : Unit) : Source :=
  plainData (fun p k s =>
    if k = 0 then eventBytes (s.ports.get p).events
    else if k = 2 then eventBytes (s.ports.get p).mask
    else [0#8])

/-- EVENTS (R177). -/
def execEvents (p : Port) (f : Frame Unit) (s : State) : Host.Outcome State Fault Refusal :=
  completed (readFrame p .events noArgs noArgsOf openCheck eventsData f s)

/-- EVCLR taken by a port (R177). -/
def takeEvclr (p : Port) (m : BitVec 16) (s : State) : State × Result :=
  (s.mapPort p (fun q => { q with events := q.events &&& ~~~(eventArgument m) }), .done)

/-- EVCLR (R177). -/
def execEvclr (p : Port) (f : Frame (BitVec 16)) (s : State) : Host.Outcome State Fault Refusal :=
  completed (commandFrame p .evclr bytes2 halfArgOf noLane (takeEvclr p) f s)

/-- EVMASK taken by a port (R177). -/
def takeEvmask (p : Port) (m : BitVec 16) (s : State) : State × Result :=
  (s.mapPort p (fun q => { q with mask := eventArgument m }), .done)

/-- EVMASK (R177). -/
def execEvmask (p : Port) (f : Frame (BitVec 16)) (s : State) : Host.Outcome State Fault Refusal :=
  completed (commandFrame p .evmask bytes2 halfArgOf noLane (takeEvmask p) f s)

/-! ## STAT (R54, R178, R196) -/

/-- How many blocks of the window are in a state. -/
def blocksIn (s : State) (x : BlockState) : Nat := (s.window.blocks.filter (fun b => b.state == x)).length

/-- The slot counts FREE, FILLING, FULL, HELD, RELEASED (R54). -/
def slotCounts (s : State) : List Byte :=
  ([Config.slotCount - s.window.blocks.length, blocksIn s .filling, blocksIn s .full, blocksIn s .held,
    blocksIn s .released]).map (BitVec.ofNat 8)

/-- The oldest block number (R54). -/
def oldestNumber (s : State) : Option Nat := s.window.blocks.head?.map (fun b => b.number)

/-- The newest block number (R54). -/
def newestNumber (s : State) : Option Nat := s.window.blocks.getLast?.map (fun b => b.number)

/-- The drain head number (R54). -/
def headNumber (s : State) : Option Nat := (drainHead s).map (fun b => b.number)

/-- A block number field, 0 where absent (R191). -/
def numberBytes (n : Option Nat) : List Byte := bytes4 (BitVec.ofNat 32 (n.getD 0))

/-- The presence byte of STAT (R196). -/
def statPresence (s : State) : Byte :=
  (if (oldestNumber s).isSome then 1#8 else 0#8) ||| (if (newestNumber s).isSome then 2#8 else 0#8) |||
    (if (headNumber s).isSome then 4#8 else 0#8)

/-- The cursor field of STAT: target and direction (R178, R196). -/
def cursorBytes (c : Cursor) : List Byte := bytes2 (BitVec.ofNat 16 (c.target.getD 0)) ++ [c.direction.code]

/-- The current work field of STAT: code and block number (R191, R196). -/
def workBytes (w : Work) : List Byte :=
  match w with
  | .none => 0#8 :: numberBytes none
  | .live k _ => 1#8 :: numberBytes (some k)
  | .reRender k _ => 2#8 :: numberBytes (some k)

/-- The lane whose fields hold STAT byte 25 + n, six bytes a lane (R196). -/
def statLane (n : Nat) : Option Lane := Lane.ofNat? (n / 6)

/-- The learn remaining that STAT reports for a lane: 0 for a lane outside the active lane set (R178). -/
def learnRemaining (s : State) (l : Lane) : Nat :=
  if l ∈ activeLanes s then (s.engines.get l).learn.remaining else 0

/-- The item of STAT that begins with data byte k (R178, R196). -/
def statItem (p : Port) (k : Nat) (s : State) : List Byte :=
  if k = 0 then [s.pass.state.code]
  else if k = 1 then slotCounts s
  else if k = 6 then [statPresence s]
  else if k = 7 then numberBytes (oldestNumber s)
  else if k = 11 then numberBytes (newestNumber s)
  else if k = 15 then numberBytes (headNumber s)
  else if k = 19 then bytes2 (BitVec.ofNat 16 s.catalogue.entries.length)
  else if k = 21 then cursorBytes (s.catalogue.cursors.get p)
  else if k = 24 then [s.tracker.point.lock.code]
  else if k < 25 then [0#8]
  else
    match statLane (k - 25) with
    | none => [0#8]
    | some l =>
      if (k - 25) % 6 = 0 then workBytes (workOf s l)
      else if (k - 25) % 6 = 5 then [BitVec.ofNat 8 (learnRemaining s l)]
      else [0#8]

/-- The data of STAT (R178). -/
def statData (_ : Unit) : Source := plainData statItem

/-- STAT (R178). -/
def execStat (p : Port) (f : Frame Unit) (s : State) : Host.Outcome State Fault Refusal :=
  completed (readFrame p .stat noArgs noArgsOf openCheck statData f s)

/-! ## CAPS (R179, R196) -/

/-- The capability page: 32 bytes (R196). -/
def capabilityPage : List Byte :=
  [0x04#8, 0x36#8, 1#8, 4#8, 3#8, 64#8] ++ bytes2 2048#16 ++ bytes2 2048#16 ++ [128#8] ++ bytes2 1920#16 ++ [48#8, 64#8] ++
    bytes2 1024#16 ++ [32#8, 17#8, 12#8, 4#8, 48#8, 128#8] ++ List.replicate 9 0#8

/-- The data of CAPS: byte i is byte offset + i of the page, 0xFF past its end (R179). -/
def capsData (offset : Byte) : Source := plainData (fun _ k _ => [capabilityPage.getD (offset.toNat + k) 0xFF#8])

/-- CAPS (R179). -/
def execCaps (p : Port) (f : Frame Byte) (s : State) : Host.Outcome State Fault Refusal :=
  completed (readFrame p .caps byteArg byteArgOf openCheck capsData f s)

/-! ## PROBE (R175) -/

/-- The result that a PROBE returns (R175). -/
def probeResult (s : State) (p : Port) (a : ProbeArgs) : Result :=
  match Request.ofCode a.code with
  | none => .unknown
  | some r => acceptance s p r a.lane

/-- The data of PROBE: one byte (R175). -/
def probeData (a : ProbeArgs) : Source :=
  plainData (fun p k s => if k = 0 then [(probeResult s p a).code] else [0#8])

/-- PROBE (R175). -/
def execProbe (p : Port) (f : Frame ProbeArgs) (s : State) : Host.Outcome State Fault Refusal :=
  completed (readFrame p .probe ProbeArgs.toBytes ProbeArgs.ofBytes openCheck probeData f s)

end Sys2Proof.Machine
end

