-- ==== Sys2Proof/Machine/Dispatch.lean ====
section
/-! DEFINITION. The meaning of each command, one arm each. -/

namespace Sys2Proof.Machine

def exec (i : Instr) (s : State) : Host.Outcome State Fault Refusal :=
  match i with
  | .openPass p f => Sys2Proof.Machine.execOpenPass p f s
  | .closePass p f => Sys2Proof.Machine.execClosePass p f s
  | .abort p f => Sys2Proof.Machine.execAbort p f s
  | .splice p f => Sys2Proof.Machine.execSplice p f s
  | .lput p f => Sys2Proof.Machine.execLput p f s
  | .learn p f => Sys2Proof.Machine.execLearn p f s
  | .lget p f => Sys2Proof.Machine.execLget p f s
  | .hold p f => Sys2Proof.Machine.execHold p f s
  | .rls p f => Sys2Proof.Machine.execRls p f s
  | .cdec p f => Sys2Proof.Machine.execCdec p f s
  | .dnext p f => Sys2Proof.Machine.execDnext p f s
  | .dack p f => Sys2Proof.Machine.execDack p f s
  | .grant p f => Sys2Proof.Machine.execGrant p f s
  | .rstp p f => Sys2Proof.Machine.execRstp p f s
  | .rights p f => Sys2Proof.Machine.execRights p f s
  | .cseek p f => Sys2Proof.Machine.execCseek p f s
  | .cwalk p f => Sys2Proof.Machine.execCwalk p f s
  | .events p f => Sys2Proof.Machine.execEvents p f s
  | .evclr p f => Sys2Proof.Machine.execEvclr p f s
  | .evmask p f => Sys2Proof.Machine.execEvmask p f s
  | .stat p f => Sys2Proof.Machine.execStat p f s
  | .caps p f => Sys2Proof.Machine.execCaps p f s
  | .probe p f => Sys2Proof.Machine.execProbe p f s
  | .unknownCode p f => Sys2Proof.Machine.execUnknownCode p f s
  | .short p f => Sys2Proof.Machine.execShort p f s
  | .pinReset chief => Sys2Proof.Machine.execPinReset chief s
  | .transfer tag word => Sys2Proof.Machine.execTransfer tag word s
  | .headTaken => Sys2Proof.Machine.execHeadTaken s
  | .dataTaken => Sys2Proof.Machine.execDataTaken s
  | .markTaken => Sys2Proof.Machine.execMarkTaken s
  | .endTaken => Sys2Proof.Machine.execEndTaken s
  | .runOutEnd => Sys2Proof.Machine.execRunOutEnd s
  | .trackerTimeout q => Sys2Proof.Machine.execTrackerTimeout q s
  | .liveRenderTake l => Sys2Proof.Machine.execLiveRenderTake l s
  | .reRenderTake l => Sys2Proof.Machine.execReRenderTake l s
  | .clickListing l => Sys2Proof.Machine.execClickListing l s
  | .voidListing l => Sys2Proof.Machine.execVoidListing l s
  | .liveRenderComplete l w => Sys2Proof.Machine.execLiveRenderComplete l w s
  | .reRenderComplete l w => Sys2Proof.Machine.execReRenderComplete l w s
  | .selectPulse p => Sys2Proof.Machine.execSelectPulse p s

end Sys2Proof.Machine
end

