-- ==== Sys2Proof/Safety.lean ====
section
/-! DEFINITION. What the statements about the part are written in: the state at the end of a frame with the nibbles it
drove, and the invariants that every command keeps. Each invariant names the rules it gathers. -/

namespace Sys2Proof.Machine

/-! ## Frames -/

/-- Nibble k of a byte stream whose bytes are two nibbles each, high nibble first, b being the byte that holds it (R166). -/
def nibbleOf (b : Byte) (k : Nat) : Nibble := if k % 2 = 0 then b.extractLsb' 4 4 else b.extractLsb' 0 4

/-- The first n nibbles of a reply whose byte i is given (R166). -/
def replyNibbles (byteAt : Nat → Byte) (n : Nat) : List Nibble :=
  (List.range n).map (fun k => nibbleOf (byteAt (k / 2)) k)

/-- The n nibbles that a request taken at frame end drives while its reply is clocked: its status byte again and again
(R169). -/
def statusReply (s : State) (p : Port) (n : Nat) : List Nibble := replyNibbles (fun _ => statusByte s p) n

/-- The n nibbles that a read drives: the status byte, the data, and 0 past their end (R169, R170). -/
def readReply (s : State) (p : Port) (data : List Byte) (n : Nat) : List Nibble :=
  replyNibbles (fun i => (statusByte s p :: data).getD i 0#8) n

/-- A port after the end of a frame: DESELECTED with the frame's result, its event set and mask as they were, and the
nibbles that the frame drove (R168). -/
def PortState.afterFrame (q : PortState) (r : Result) (driven : List Nibble) : PortState :=
  { frame := .deselected, received := [], odd := none, lastResult := r, events := q.events, mask := q.mask
    attention := q.attention, pulses := 0, byte := 0#8, item := [], walked := none, verdict := .done, drain := none
    driven := driven }

/-- A port with its event set and attention output left out of account: what a raised event cannot change (R176). -/
def PortState.quiet (q : PortState) : PortState := { q with events := 0#11, attention := false }

/-- An event's flag is set in the event sets of all three ports (R176). -/
def raisedEverywhere (e : Event) (t : State) : Prop := ∀ p : Port, (t.ports.get p).events &&& e.flag = e.flag

/-- No port differs but in its event set and its attention output. -/
def portsQuiet (s t : State) : Prop := ∀ p : Port, (t.ports.get p).quiet = (s.ports.get p).quiet

/-- The port is DESELECTED: no frame is under way on it, and select may fall (R166). -/
abbrev State.portFree (s : State) (p : Port) : Prop := (s.ports.get p).frame = .deselected

/-- The part with nothing changed but one port, whose frame has ended. -/
def State.frameEnded (s : State) (p : Port) (r : Result) (driven : List Nibble) : State :=
  { s with ports := s.ports.set p ((s.ports.get p).afterFrame r driven) }

/-- The assembler can take the oldest entry of the scan FIFO, which is e (R4). -/
abbrev State.canTake (s : State) (e : FifoEntry) (rest : List FifoEntry) : Prop :=
  s.scan.fifo = e :: rest ∧ (s.pass.state = .running ∨ s.pass.state = .closing) ∧ s.scan.stall.waiting = false ∧
    s.scan.inputEnded = false

/-- Scan Input once the oldest entry has left the FIFO and is done with (R4). -/
def State.entryGone (s : State) (rest : List FifoEntry) : State :=
  s.setScan { s.scan with fifo := rest, suspended := none }

/-! ## Frames sent in parts -/

/-- A frame sent in parts, select falling with code and arguments, then n clock pulses, then select rising, comes to what
the whole frame comes to (R166). -/
def PartsMakeTheWhole {α : Type} (c : Frame α → Instr) (a : α) (n : Nat) (s : State) : Prop :=
  ∃ s1 s2, exec (c (.receive a)) s = .next s1 ∧ exec (c (.reply n)) s1 = .next s2 ∧
    exec (c .finish) s2 = exec (c (.whole a n)) s

/-- The rise of select on a port that has received code and arguments acts in the state as it then stands: as a whole frame
of no reply would from that state with the port DESELECTED, but for the nibbles that the frame has driven (R168, R172). -/
def FinishActsAsThingsStand {α : Type} (c : Frame α → Instr) (p : Port) (a : α) (s : State) : Prop :=
  ∃ t, exec (c (.whole a 0)) (s.frameEnded p (s.ports.get p).lastResult []) = .next t ∧
    exec (c .finish) s = .next (t.mapPort p (fun q => { q with driven := (s.ports.get p).driven }))

/-- A read sent in parts with nothing between them drives, before select rises, the nibbles that the whole frame drives, and
comes to what the whole frame comes to (R166, R170). -/
def PartsDrive {α : Type} (c : Frame α → Instr) (p : Port) (a : α) (n : Nat) (s : State) : Prop :=
  ∃ s1 s2 t, exec (c (.receive a)) s = .next s1 ∧ exec (c (.reply n)) s1 = .next s2 ∧
    exec (c (.whole a n)) s = .next t ∧ exec (c .finish) s2 = .next t ∧
    (s1.ports.get p).frame = .replying ∧ (s2.ports.get p).frame = .replying ∧
    (s2.ports.get p).driven = (t.ports.get p).driven

/-- Clock pulses sent in two runs with nothing between them come to the pulses of one run (R166). -/
def RepliesJoin {α : Type} (c : Frame α → Instr) (n m : Nat) (s : State) : Prop :=
  ∃ s1, exec (c (.reply n)) s = .next s1 ∧ exec (c (.reply m)) s1 = exec (c (.reply (n + m))) s

/-! ## Fields of a reply (R191) -/

/-- A field of k bytes, most significant byte first (R191). -/
def fieldBytes (k v : Nat) : List Byte := (List.range k).map (fun i => BitVec.ofNat 8 (v / 256 ^ (k - 1 - i)))

/-- The code of an entry kind, as the table of R191 lists it. -/
def kindCode : EntryKind → Nat
  | .click => 1
  | .void => 2
  | .gap => 3
  | .splice => 4
  | .slip => 5

/-- The 16 bytes of an entry item, field by field in the order of the table of R194. -/
def entryItem (e : Entry) : List Byte :=
  fieldBytes 2 e.number ++ fieldBytes 1 (kindCode e.kind) ++
    fieldBytes 1 (match e.lane with
      | none => 0
      | some l => l.toNat + 128) ++
    fieldBytes 1
      ((match e.decision with
          | none => 0
          | some .repair => 1
          | some .pass => 2
          | some .hold => 3) +
        (if e.decidedBy = .review then 16 else 0) + (if e.fixed = true then 128 else 0)) ++
    fieldBytes 5 e.start.toNat ++ fieldBytes 2 (e.span.getD 0) ++
    fieldBytes 4 (match e.kind, e.reported with
      | .click, _ => e.peak.getD 0
      | .slip, some r => r.reported.toNat
      | _, _ => 0)

/-- The 46 bytes of a drain record header, field by field in the order of the table of R195. -/
def headerFields (s : State) (selector : Nat) (b : Block) : List Byte :=
  let peak := fun (l : Lane) => (b.lanes.get l).bind (fun r => r.inputPeak)
  fieldBytes 1 1 ++ fieldBytes 1 selector ++ fieldBytes 4 b.number ++ fieldBytes 5 b.first.toNat ++
    fieldBytes 2 b.fill ++ fieldBytes 1 s.pass.laneMask.toNat ++
    fieldBytes 1
      ((if b.filmGap = true then 1 else 0) + (if b.filmSlip = true then 2 else 0) +
        (if b.filmLink = true then 4 else 0)) ++
    fieldBytes 1
      ((if (peak .lane0).isSome = true then 1 else 0) + (if (peak .lane1).isSome = true then 2 else 0) +
        (if (peak .lane2).isSome = true then 4 else 0) + (if (peak .lane3).isSome = true then 8 else 0)) ++
    Lane.all.flatMap (fun l => fieldBytes 1 (((b.lanes.get l).map (fun r => r.unlisted)).getD 0)) ++
    Lane.all.flatMap (fun l => fieldBytes 3 ((peak l).getD 0)) ++
    Lane.all.flatMap (fun l => fieldBytes 3 (((b.lanes.get l).map (fun r => r.outputPeak)).getD 0)) ++
    fieldBytes 2 (s.catalogue.entries.filter (fun e => blockNumberOf s e.start = (b.number : Int))).length

/-- The samples of an array in a drain record: by position, then by active lane, three bytes each (R184, R195). -/
def sampleFields (s : State) (b : Block) (a : SampleArray) : List Byte :=
  (List.range b.fill).flatMap (fun o =>
    (activeLanes s).flatMap (fun l => fieldBytes 3 (readSample s b a l o).toNat))

/-! ## Securing a block -/

/-- The slot is the lowest-numbered FREE one (R35). -/
def LowestFree (s : State) (slot : Nat) : Prop :=
  slot < 64 ∧ (∀ b ∈ s.window.blocks, b.slot ≠ slot) ∧ ∀ j, j < slot → ∃ b ∈ s.window.blocks, b.slot = j

/-- No slot is FREE (R35). -/
def NoneFree (s : State) : Prop := ∀ j, j < 64 → ∃ b ∈ s.window.blocks, b.slot = j

/-- The record of a block that Scan Input secures in a slot, as it is then written (R17, R31, R37, R38). -/
def newBlock (s : State) (slot : Nat) : Block :=
  let first := s.pass.start + BitVec.ofNat 40 (2048 * s.window.counter)
  { slot := slot, number := s.window.counter, first := first, fill := 0, state := .filling
    filmGap := false, filmSlip := false, filmLink := false
    start :=
      if s.tracker.heldEvents = [] then s.tracker.point else s.tracker.heldStart.getD s.tracker.point
    events := s.tracker.heldEvents.map (fun e => ⟨(e.position - first).toNat, e.kind⟩)
    lanes := (PerLane.same ()).mapIdx (fun l _ =>
      if s.pass.laneMask.getLsbD l.toNat = true then
        some
          { render := .pending, dirty := false, learnFlag := false, unlisted := 0, inputPeak := none, outputPeak := 0
            snapshot :=
              { phaseA := 0#32, phaseB := 0#32, slots := List.replicate 12 ⟨0#32, 0#32⟩, lp := 0#24, env := 0#25 } }
      else none) }

/-- The part with the block that the counter numbers secured in a slot: the block is the newest, the counter has risen and
no tracker event is held (R17, R31). -/
def State.slotTaken (s : State) (slot : Nat) : State :=
  { s with
    window := { s.window with blocks := s.window.blocks ++ [newBlock s slot], counter := s.window.counter + 1 }
    tracker := { s.tracker with heldEvents := [], heldStart := none } }

/-- The block that the next position is to be written into is b, in the part u: the FILLING block of s, or the block that
Scan Input first secures in the lowest-numbered FREE slot (R17). -/
def BlockReady (s u : State) (b : Block) : Prop :=
  (fillingBlock s = some b ∧ u = s) ∨
    ∃ slot, fillingBlock s = none ∧ s.window.counter < 2 ^ 28 ∧ LowestFree s slot ∧ b = newBlock s slot ∧
      u = s.slotTaken slot

/-! ## Writing positions -/

/-- None of the next n positions to be written lies more than 2 x perf_max past the reference of a LOCKED tracker, its last
mark or else its slip position, as a signed 40-bit distance (R28). -/
def NoTimeout (s : State) (n : Nat) : Prop :=
  s.tracker.point.lock = .locked → ∀ r ∈ s.tracker.lastMark.or s.tracker.slipPosition, ∀ i, i < n →
    (s.scan.next + BitVec.ofNat 40 i - r).toInt ≤ 2 * (s.pass.perfMax : Int)

/-- The original cell of a lane at an offset counted from the first position of block b; from 2048 on it lies in the block
after b, in the slot `second` (R16, R36). -/
def cellFrom (b : Block) (second o : Nat) (l : Lane) : Nat :=
  if o < 2048 then sampleAddress b.slot .original l o else sampleAddress second .original l (o - 2048)

/-- Void values stand at n positions from the fill count of b on, on every active lane, but that the first of them keeps its
first `skip` lanes; no other cell has changed (R10, R14). -/
def VoidsWritten (s t : State) (b : Block) (second n skip : Nat) : Prop :=
  let written := fun (j : Nat) (l : Lane) (i : Nat) => (activeLanes s)[j]? = some l ∧ i < n ∧ (i = 0 → skip ≤ j)
  (∀ j l i, written j l i → readCell t.window.memory (cellFrom b second (b.fill + i) l) = 0x800000#24) ∧
    ∀ y, (∀ j l i, written j l i → y ≠ cellFrom b second (b.fill + i) l) →
      readCell t.window.memory y = readCell s.window.memory y

/-- The first m samples of w bits of a bit stream stand in the original array, from the fill count of b on, the first on lane
number `lane` of the active lanes, the position rising after the highest; each sample's bits are the high bits of its cell
and the rest 0; no other cell has changed (R11, R16). -/
def SamplesWritten (s t : State) (b : Block) (second m lane w : Nat) (stream : List Bool) : Prop :=
  let n := (activeLanes s).length
  let at_ := fun (i : Nat) (l : Lane) => i < m ∧ (activeLanes s)[(lane + i) % n]? = some l
  (∀ i l, at_ i l → ∀ c, c < 24 →
      (readCell t.window.memory (cellFrom b second (b.fill + (lane + i) / n) l)).getMsbD c =
        (decide (c < w) && stream.getD (i * w + c) false)) ∧
    ∀ y, (∀ i l, at_ i l → y ≠ cellFrom b second (b.fill + (lane + i) / n) l) →
      readCell t.window.memory y = readCell s.window.memory y

/-- A FILLING block with n positions more; with 2048 it is FULL (R16, R19). -/
def Block.grown (b : Block) (n : Nat) : Block :=
  { b with fill := b.fill + n, state := if b.fill + n = 2048 then .full else .filling }

/-- The 32 bits of a DATA word in the order in which they enter the bit stream: bytes 3 2 1 0 in HIGH-FIRST and 0 1 2 3 in
LOW-FIRST, each most significant bit first (R11). -/
def wordBits (o : ByteOrder) (w : Word32) : List Bool :=
  (List.range 32).map (fun q => w.getLsbD (if o = .highFirst then 31 - q else 8 * (q / 8) + (7 - q % 8)))

/-- The packet that word A opens at a position: its count and words needed, no word received, no partial bit and no lane
written (R5). -/
def packetAt (s : State) (a : Word32) (first : Position) : PacketContext :=
  { first := first, count := a.toNat / 65536
    wordsNeeded := (a.toNat / 65536 * (activeLanes s).length * s.pass.width.bits + 31) / 32
    wordsReceived := 0, partialBits := [], lanesWritten := 0 }

/-! ## Loss marks and listings -/

/-- What a loss mark does once its entry is done with: the LINK film flag of the FILLING block; an OPEN packet becomes
DAMAGED, and a held header is dropped to DISCARD (R7). -/
def State.lossMarked (s : State) : State :=
  { s with
    window :=
      { s.window with
        blocks := s.window.blocks.map (fun b => if b.state = .filling then { b with filmLink := true } else b) }
    scan :=
      match s.scan.packet with
      | .opened => { s.scan with packet := .damaged }
      | .header => { s.scan with packet := .discard, heldWord := none }
      | .none => s.scan
      | .damaged => s.scan
      | .discard => s.scan }

/-- The state t holds one entry more than s, with the number assigned to it and every cursor as it was; CATHIGH is raised
where the count of entries has become 1920, and no other event (R56, R59, R63). -/
def EntryAdded (s t : State) (e : Entry) : Prop :=
  t.catalogue.entries.Perm ({ e with number := assignedNumber s } :: s.catalogue.entries) ∧
    t.catalogue.counter = nextNumber (assignedNumber s) ∧ t.catalogue.cursors = s.catalogue.cursors ∧
    ∀ p, (t.ports.get p).events =
      if s.catalogue.entries.length = 1919 then (s.ports.get p).events ||| Event.cathigh.flag
      else (s.ports.get p).events

/-- The catalogue is as it was, and UNLISTED is raised and no other event (R64, R65). -/
def EntryUnlisted (s t : State) : Prop :=
  t.catalogue = s.catalogue ∧ ∀ p, (t.ports.get p).events = (s.ports.get p).events ||| Event.unlisted.flag

/-- A lane record with one unlisted repair more, stopping at 255 (R64). -/
def LaneRecord.oneUnlisted (r : LaneRecord) : LaneRecord := { r with unlisted := min 255 (r.unlisted + 1) }

/-- A tracker event due at a position has been published (R30): at that position or, where that lies before it, at the last
published position, which it becomes. In a FILLING or FULL block it is the newest event of the block, an eighteenth in the
place of the seventeenth, and every later block starts with the lock state and S8 now in force; in a block not yet secured,
which no block of the window is and whose positions lie at or after the first position of the block that the counter
numbers, it is held, with the state before it where it is the first (R31, R32). -/
def EventPublished (s t : State) (want : Position) (kind : TrackerEventKind) : Prop :=
  let pos := match s.tracker.lastPublished with
    | some l => if (want - l).toInt < 0 then l else want
    | none => want
  t.tracker.lastPublished = some pos ∧
    (∀ b ∈ s.window.blocks, (b.number : Int) = blockNumberOf s pos → (b.state = .filling ∨ b.state = .full) →
      t.tracker.heldEvents = s.tracker.heldEvents ∧ t.tracker.heldStart = s.tracker.heldStart ∧
      t.window =
        { s.window with
          blocks := s.window.blocks.map (fun c =>
            if c.number = b.number then
              { c with
                events := (if c.events.length < 17 then c.events else c.events.dropLast) ++
                  [⟨(pos - b.first).toNat, kind⟩] }
            else if b.number < c.number then { c with start := t.tracker.point } else c) }) ∧
    ((∀ b ∈ s.window.blocks, (b.number : Int) ≠ blockNumberOf s pos) →
      0 ≤ (pos - (s.pass.start + BitVec.ofNat 40 (2048 * s.window.counter))).toInt →
      t.window = s.window ∧
      t.tracker.heldEvents =
        (if s.tracker.heldEvents.length < 17 then s.tracker.heldEvents else s.tracker.heldEvents.dropLast) ++
          [⟨pos, kind⟩] ∧
      t.tracker.heldStart = if s.tracker.heldEvents = [] then some s.tracker.point else s.tracker.heldStart)

/-- The window after a stale request from block k for each of some lanes: no effect for a lane that has no record in block k,
or whose record there is PENDING; else, in every block numbered k or higher, a DONE record of the lane becomes STALE, a
WORKING one is marked dirty, and a STALE or PENDING one stays as it is (R45). -/
def staledWindow (s : State) (lanes : List Lane) (k : Nat) : Window :=
  let taken := fun (l : Lane) =>
    l ∈ lanes ∧ ((blockNumbered s k).bind (fun b => b.lanes.get l)).any (fun r => r.render != .pending)
  let staled := fun (r : LaneRecord) =>
    if r.render = .done then { r with render := .stale } else if r.render = .working then { r with dirty := true } else r
  { s.window with
    blocks := s.window.blocks.map (fun c =>
      if k ≤ c.number then { c with lanes := c.lanes.mapIdx (fun l r => if taken l then r.map staled else r) } else c) }

/-- The entries that start in block k have left the catalogue; a cursor on one of them stands on the first of the entries
after it that stays, or at END, every other cursor is where it was, and no direction has changed (R67, R69). -/
def EntriesRemoved (s t : State) (k : Nat) : Prop :=
  t.catalogue.entries = s.catalogue.entries.filter (fun e => blockNumberOf s e.start ≠ (k : Int)) ∧
    t.catalogue.counter = s.catalogue.counter ∧
    ∀ x, (t.catalogue.cursors.get x).direction = (s.catalogue.cursors.get x).direction ∧
      ((s.catalogue.cursors.get x).target = none → (t.catalogue.cursors.get x).target = none) ∧
      ∀ m e, (s.catalogue.cursors.get x).target = some m → entryNumbered s m = some e →
        (t.catalogue.cursors.get x).target =
          if blockNumberOf s e.start ≠ (k : Int) then some m
          else ((s.catalogue.entries.dropWhile (fun y => y.number != m)).find?
            (fun y => decide (blockNumberOf s y.start ≠ (k : Int)))).map (fun y => y.number)

/-! ## Splice marks -/

/-- Every lane record of a block is PENDING, or WORKING under a live render (R159). -/
def NoRenderDone (s : State) (b : Block) : Prop :=
  ∀ l r, b.lanes.get l = some r →
    r.render = .pending ∨ (r.render = .working ∧ ∃ f, (s.engines.get l).work = .live b.number f)

/-- The newest block of the window. -/
def Newest (s : State) (b : Block) : Prop := b ∈ s.window.blocks ∧ ∀ c ∈ s.window.blocks, c.number ≤ b.number

/-- A splice start lies behind the splice horizon, which is the first position of the lowest-numbered block without a render
done, or one past the last position of the newest block where each block has one (R159). -/
def SpliceLate (s : State) (start : Position) : Prop :=
  (∃ b ∈ s.window.blocks, NoRenderDone s b ∧ (∀ c ∈ s.window.blocks, c.number < b.number → ¬NoRenderDone s c) ∧
      passOffset s start < passOffset s b.first) ∨
    ((∀ c ∈ s.window.blocks, ¬NoRenderDone s c) ∧
      ∃ b, Newest s b ∧ passOffset s start < passOffset s b.first + 2048)

/-- A splice start lies after the last position of the newest block, or the window holds no block (R62). -/
def SpliceBeyond (s : State) (start : Position) : Prop :=
  s.window.blocks = [] ∨ ∃ b, Newest s b ∧ passOffset s b.first + 2047 < passOffset s start

/-- A splice span has a position in common with a CLICK of an active lane or a SPLICE (R62). -/
def SpliceClash (s : State) (start : Position) : Prop :=
  ∃ e ∈ s.catalogue.entries, (e.kind = .splice ∨ (e.kind = .click ∧ ∃ l ∈ activeLanes s, e.lane = some l)) ∧
    ∃ m, e.span = some m ∧ passOffset s start < passOffset s e.start + m ∧
      passOffset s e.start < passOffset s start + s.pass.spliceSpan

/-! ## Mending -/

/-- A catalogue entry whose span covers a position on a lane (R91). -/
def Entry.CoversOn (s : State) (l : Lane) (p : Position) (e : Entry) : Prop :=
  (e.lane = none ∨ e.lane = some l) ∧
    ∃ m, e.span = some m ∧ passOffset s e.start ≤ passOffset s p ∧ passOffset s p < passOffset s e.start + m

/-- A span of the unlisted carry covers a position (R91). -/
def CarriedSpan.CoversAt (s : State) (p : Position) (c : CarriedSpan) : Prop :=
  passOffset s c.start ≤ passOffset s p ∧ passOffset s p < passOffset s c.start + c.span

/-- The place of a kind where several entries cover a position, the first place first (R92); a SLIP covers none. -/
def mendPlace : EntryKind → Nat
  | .gap => 1
  | .void => 2
  | .splice => 3
  | .click => 4
  | .slip => 5

/-- What treats a position of a lane in the mend stage: the covering entry of the first place (R92) or, in a live render
where no entry covers the position, the one carried span that does (R91). -/
def Treats (s : State) (live : Bool) (l : Lane) (p : Position) (kind : EntryKind) (start : Position) (span : Nat)
    (d : Decision) : Prop :=
  (∃ e ∈ s.catalogue.entries, e.CoversOn s l p ∧ e.kind = kind ∧ e.start = start ∧ e.span = some span ∧
      e.decision = some d ∧
      ∀ x ∈ s.catalogue.entries, x.CoversOn s l p → x = e ∨ mendPlace kind < mendPlace x.kind) ∨
    (live = true ∧ (∀ x ∈ s.catalogue.entries, ¬x.CoversOn s l p) ∧
      ∃ c ∈ (s.engines.get l).detector.carry, c = ⟨kind, start, span, d⟩ ∧ c.CoversAt s p ∧
        ∀ y ∈ (s.engines.get l).detector.carry, y.CoversAt s p → y = c)

/-- Nothing treats a position of a lane in the mend stage (R91). -/
def Untreated (s : State) (live : Bool) (l : Lane) (p : Position) : Prop :=
  (∀ x ∈ s.catalogue.entries, ¬x.CoversOn s l p) ∧
    (live = true → ∀ y ∈ (s.engines.get l).detector.carry, ¬y.CoversAt s p)

/-- The anchors of a span as they stand (R93): the mended value before it, unless it begins at the pass start or that
position's block has left the window; the original value after it where that is a written position of the pass and not
void; and the right one in the place of a missing left one. -/
def anchorsNow (s : State) (l : Lane) (start : Position) (span : Nat) : Anchors :=
  let next := start + BitVec.ofNat 40 span
  let right :=
    match (if inPass s next = true then originalAt s l next else none) with
    | some v => if v = 0x800000#24 then none else some v
    | none => none
  let left := if start = s.pass.start then none else mendedAt s l (start - 1#40)
  ⟨if left = none then right else left, right⟩

/-- The original value of a position, or the void guard where that is void: the mended value before it, or 0 (R96). -/
def passedValue (s : State) (l : Lane) (p : Position) (v : Sample) : Sample :=
  if v ≠ 0x800000#24 then v
  else if p = s.pass.start then 0#24
  else (mendedAt s l (p - 1#40)).getD 0#24

/-! ## Detection -/

/-- An entry whose span blocks its positions on a lane for detection: a GAP, a SPLICE or the lane's VOID (R78, R85). -/
def Entry.Obstructs (l : Lane) (e : Entry) : Prop :=
  e.kind = .gap ∨ e.kind = .splice ∨ (e.kind = .void ∧ e.lane = some l)

/-- The spans of an entry and of n positions from p have a position in common. -/
def Entry.Meets (s : State) (p : Position) (n : Nat) (e : Entry) : Prop :=
  ∃ m, e.span = some m ∧ passOffset s e.start < passOffset s p + n ∧ passOffset s p < passOffset s e.start + m

/-- The span of an entry covers a position (R91). -/
def Entry.CoversPosition (s : State) (p : Position) (e : Entry) : Prop :=
  ∃ m, e.span = some m ∧ passOffset s e.start ≤ passOffset s p ∧ passOffset s p < passOffset s e.start + m

/-- The position's original value on a lane is void, and it lies in no GAP span: it starts or joins a void run (R77). -/
def FreeVoid (s : State) (l : Lane) (q : Position) : Prop :=
  originalAt s l q = some 0x800000#24 ∧ ∀ e ∈ s.catalogue.entries, e.kind = .gap → ¬e.CoversPosition s q

/-- A position of the pass in the window, not blocked for a lane, has the original value x (R78). -/
def Unblocked (s : State) (l : Lane) (q : Position) (x : Int) : Prop :=
  inPass s q = true ∧
    (∃ v, originalAt s l q = some v ∧ v ≠ 0x800000#24 ∧ v.toInt = x) ∧
    ∀ e ∈ s.catalogue.entries, e.Obstructs l → ¬e.CoversPosition s q

/-- The residual at a position of a lane is computable and has the value r (R78). -/
def ResidualIs (s : State) (l : Lane) (q : Position) (r : Int) : Prop :=
  ∃ x y z, Unblocked s l q x ∧ Unblocked s l (q - 1#40) y ∧ Unblocked s l (q - 2#40) z ∧ r = x - 2 * y + z

/-- The threshold of a lane's detection: the larger of Tmin and floor(envelope x ratio / 16), by the settings taken (R80). -/
def thresholdNow (s : State) (l : Lane) (p : LaneSettings) : Nat :=
  max p.tmin ((s.engines.get l).detector.envelope * p.clickRatio / 16)

/-- The part with a lane's detector in another state, at another next position and with another envelope. -/
def State.detecting (s : State) (l : Lane) (x : Detecting) (next : Position) (envelope : Nat) : State :=
  let e := s.engines.get l
  { s with
    engines := s.engines.set l { e with detector := { e.detector with state := x, next := next, envelope := envelope } } }

/-- A forming click, from n with last exceeding position m and a guard count, ends at the examination of the detector's next
position q: the length of the span closed, and the next position and the envelope that it leaves (R81 to R84, R87). -/
def ClickCloses (s : State) (l : Lane) (p : LaneSettings) (n m : Position) (g : Nat) (span : Nat) (next : Position)
    (envelope : Nat) : Prop :=
  let d := (s.engines.get l).detector
  let q := d.next
  let whole := ((m - n).toInt - 2).toNat + 1
  ((∃ j c, s.window.finalBlock = some j ∧ blockNumbered s j = some c ∧ q = c.first + BitVec.ofNat 40 c.fill) ∧
      pastEnd s q = true ∧ span = min (q - n).toInt.toNat 255 ∧ next = q ∧ envelope = d.envelope) ∨
    (pastEnd s q = false ∧ (∀ r, ¬ResidualIs s l q r) ∧ span = whole ∧ next = q ∧ envelope = d.envelope) ∨
    ∃ r, pastEnd s q = false ∧ ResidualIs s l q r ∧ next = q + 1#40 ∧
      ((r.natAbs ≤ thresholdNow s l p ∧ p.guardLen ≤ g + 1 ∧ span = whole ∧ envelope = d.envelope) ∨
        (thresholdNow s l p < r.natAbs ∧ 256 < (q - n).toInt ∧ span = 255 ∧ envelope = r.natAbs))

/-- What the clash check leaves of a click span of `span` positions from n: none of it where a blocking span that meets it
covers n, else what lies before the lowest start of those that meet it (R85). -/
def ClashLeaves (s : State) (l : Lane) (n : Position) (span : Nat) (left : Option Nat) : Prop :=
  let clashes := fun (e : Entry) => e ∈ s.catalogue.entries ∧ e.Obstructs l ∧ e.Meets s n span
  ((∃ e, clashes e ∧ e.CoversPosition s n) ∧ left = none) ∨
    ((∀ e, ¬clashes e) ∧ left = some span) ∨
    ((∀ e, clashes e → ¬e.CoversPosition s n) ∧
      ∃ e, clashes e ∧ (∀ x, clashes x → passOffset s e.start ≤ passOffset s x.start) ∧
        left = some (passOffset s e.start - passOffset s n).toNat)

/-- A void run from `start` ends at the examination of the detector's next position: its length, and the next position that
it leaves (R86, R87). -/
def VoidCloses (s : State) (l : Lane) (length : Nat) (span : Nat) (next : Position) : Prop :=
  let q := (s.engines.get l).detector.next
  (pastEnd s q = true ∧ span = length ∧ next = q) ∨
    (pastEnd s q = false ∧ ¬FreeVoid s l q ∧ span = length ∧ next = q) ∨
    (pastEnd s q = false ∧ FreeVoid s l q ∧ 2048 ≤ length + 1 ∧ span = length + 1 ∧ next = q + 1#40)

/-- A span that detection closes on a lane has been listed where the catalogue has room; where it holds 2048 entries the span
has joined the lane's unlisted carry, the unlisted count of the lane's record of the block that holds its start has risen by
1, stopping at 255, and UNLISTED is raised; the carry stays in start order. The detector is IDLE at a next position with an
envelope (R60, R64, R89). -/
def SpanPresented (s t : State) (l : Lane) (entry : Entry) (carried : CarriedSpan) (next : Position) (envelope : Nat) :
    Prop :=
  let x := s.engines.get l
  let d : Detector := { x.detector with state := .idle, next := next, envelope := envelope }
  (s.catalogue.entries.length < 2048 →
      EntryAdded s t entry ∧ t.window = s.window ∧ t.engines = s.engines.set l { x with detector := d }) ∧
    (2048 ≤ s.catalogue.entries.length →
      EntryUnlisted s t ∧
        t.window =
          { s.window with
            blocks := s.window.blocks.map (fun c =>
              if (c.number : Int) = blockNumberOf s carried.start then c.mapRecord l LaneRecord.oneUnlisted else c) } ∧
        ∃ carry, carry.Perm (carried :: x.detector.carry) ∧
          (x.detector.carry.Pairwise (fun a b => passOffset s a.start ≤ passOffset s b.start) →
            carry.Pairwise (fun a b => passOffset s a.start ≤ passOffset s b.start)) ∧
          t.engines = s.engines.set l { x with detector := { d with carry := carry } })

/-! ## Renders -/

/-- Adaptation is suspended at a position of a lane: its original value is void, or an entry with decision REPAIR or HOLD
covers it (R109). -/
def Suspended (s : State) (b : Block) (l : Lane) (o : Nat) : Prop :=
  readSample s b .original l o = 0x800000#24 ∨
    ∃ e ∈ s.catalogue.entries, e.CoversOn s l (b.first + BitVec.ofNat 40 o) ∧
      (e.decision = some .repair ∨ e.decision = some .hold)

/-- The input peak of a lane of a block: the largest magnitude of its original values that are not void, absent where every
position is void (R52). -/
def InputPeakIs (s : State) (b : Block) (l : Lane) (peak : Option Nat) : Prop :=
  let x := fun (o : Nat) => readSample s b .original l o
  match peak with
  | none => ∀ o, o < b.fill → x o = 0x800000#24
  | some v =>
    (∃ o, o < b.fill ∧ x o ≠ 0x800000#24 ∧ (x o).toInt.natAbs = v) ∧
      ∀ o, o < b.fill → x o ≠ 0x800000#24 → (x o).toInt.natAbs ≤ v

/-- The output peak of a lane of a block: the largest magnitude of its restored values (R52). -/
def OutputPeakIs (s : State) (b : Block) (l : Lane) (peak : Nat) : Prop :=
  let x := fun (o : Nat) => readSample s b .restored l o
  (∀ o, o < b.fill → (x o).toInt.natAbs ≤ peak) ∧ (peak = 0 ∨ ∃ o, o < b.fill ∧ (x o).toInt.natAbs = peak)

/-- The window as the completion of a render of block k by a lane leaves it before the release rule is evaluated: the lane
record of block k, the snapshot of block k + 1, and block k HELD where the completion makes it so (R42 to R44). -/
def completedWindow (s : State) (l : Lane) (k : Nat) (record : LaneRecord) (next : Snapshot) (held : Bool) : Window :=
  { s.window with
    blocks := s.window.blocks.map (fun c =>
      if c.number = k then
        { c with lanes := c.lanes.set l (some record), state := if held = true then .held else c.state }
      else if c.number = k + 1 then c.mapRecord l (fun r => { r with snapshot := next })
      else c) }

/-! ## Invariants -/

/-- READY is as R3 gives it, and each attention output as R176 gives it. -/
abbrev OutputsJudged (s : State) : Prop :=
  (s.scan.ready = true ↔ s.pass.state = .running ∧ s.scan.fifo.length ≤ Config.readyLevel) ∧
    ∀ p ∈ Port.all, ((s.ports.get p).attention = true ↔ (s.ports.get p).events &&& (s.ports.get p).mask ≠ 0#11)

/-- The scan FIFO holds 128 entries at most (chapter 1), and none while no pass is open, once the run-out has ended, or in
ENDED (R20 to R22); no stall is under way then. -/
abbrev InputLegal (s : State) : Prop :=
  s.scan.fifo.length ≤ Config.fifoDepth ∧
    (s.pass.state = .idle ∨ s.pass.state = .ended ∨ s.pass.runOutEnded = true →
      s.scan.fifo = [] ∧ s.scan.stall.waiting = false) ∧
    (s.pass.state = .running → s.pass.runOutEnded = false)

/-- The pass parameters lie in the ranges of R152; the lane mask names a lane in every state but IDLE. -/
abbrev ParametersLegal (s : State) : Prop :=
  (s.pass.state ≠ .idle → s.pass.laneMask ≠ 0#4) ∧
    128 ≤ s.pass.perfMin ∧ s.pass.perfMin ≤ s.pass.perfMax ∧ s.pass.perfMax ≤ 65535 ∧
    4 ≤ s.pass.spliceSpan ∧ s.pass.spliceSpan ≤ 48

/-- P0 to P4 lie in their ranges (R160). -/
abbrev LaneSettings.detectLegal (p : LaneSettings) : Prop :=
  (16 ≤ p.clickRatio ∧ p.clickRatio ≤ 1023) ∧ p.tmin ≤ 65535 ∧ (2 ≤ p.guardLen ∧ p.guardLen ≤ 8) ∧
    (1 ≤ p.maxspan ∧ p.maxspan ≤ 48) ∧ p.longPolicy ≤ 1

/-- P5 to P9 lie in their ranges (R160), and the harmonic counts sum to 12 at most (R162). -/
abbrev LaneSettings.humLegal (p : LaneSettings) : Prop :=
  (1 ≤ p.rhoA ∧ p.rhoA ≤ 65535) ∧ p.harmonicsA ≤ 8 ∧ (1 ≤ p.rhoB ∧ p.rhoB ≤ 65535) ∧ p.harmonicsB ≤ 8 ∧
    (6 ≤ p.adaptShift ∧ p.adaptShift ≤ 24) ∧ p.harmonicsA + p.harmonicsB ≤ 12

/-- P10 to P15 lie in their ranges (R160). -/
abbrev LaneSettings.hissLegal (p : LaneSettings) : Prop :=
  (1 ≤ p.crossover ∧ p.crossover ≤ 8) ∧ (1 ≤ p.attack ∧ p.attack ≤ 12) ∧ (1 ≤ p.release ∧ p.release ≤ 16) ∧
    (16 ≤ p.openRatio ∧ p.openRatio ≤ 255) ∧ p.gmin ≤ 32768 ∧ p.floor ≤ 8388607

/-- The settings of one lane lie in their ranges (R160, R162). -/
abbrev LaneSettings.legal (p : LaneSettings) : Prop := p.detectLegal ∧ p.humLegal ∧ p.hissLegal

/-- The settings that a lane's work in flight was taken with. -/
def Work.takenSettings : Work → Option LaneSettings
  | .none => .none
  | .live _ f => some f.settings
  | .reRender _ f => some f.settings

/-- Every lane's stored settings, and the settings taken with every work in flight, are legal (R99, R160 to R163). -/
abbrev SettingsLegal (s : State) : Prop :=
  (∀ l ∈ Lane.all, (s.engines.get l).settings.legal) ∧
    ∀ l ∈ Lane.all, ∀ p ∈ (s.engines.get l).work.takenSettings, p.legal

/-- A lock state and S8: the S8 is absent exactly in UNLOCKED, and is the sum of eight intervals within the limits of a pass
(R26, chapter 2). -/
abbrev LockPoint.legal (x : LockPoint) : Prop :=
  (x.lock = .unlocked ↔ x.s8 = none) ∧ ∀ v ∈ x.s8, 1024 ≤ v ∧ v ≤ 524280

/-- The tracker: the valid run counts the intervals of the history, eight at most and each within the interval limits; the
reject run is 3 at most; at most 17 events are held, with a start state exactly while any is held (chapter 2, table of
state). -/
abbrev TrackerLegal (s : State) : Prop :=
  s.tracker.validRun = s.tracker.history.length ∧ s.tracker.history.length ≤ 8 ∧
    (∀ i ∈ s.tracker.history, s.pass.perfMin ≤ i ∧ i ≤ s.pass.perfMax) ∧
    s.tracker.rejectRun ≤ 3 ∧ s.tracker.point.legal ∧
    s.tracker.heldEvents.length ≤ Config.maxEvents ∧
    (s.tracker.heldEvents = [] ↔ s.tracker.heldStart = none)

/-- The fill count of a block by its state: below 2048 while FILLING, and 1 to 2048 after (R37, R39, R183). -/
abbrev Block.fillLegal (b : Block) : Prop :=
  if b.state = .filling then b.fill < Config.blockSize else 1 ≤ b.fill ∧ b.fill ≤ Config.blockSize

/-- The blocks of the window: slots 0 to 63, each held once; numbers consecutive and below the block counter; only the
newest block FILLING; the RELEASED blocks the oldest ones; first positions and lane records by the pass parameters; an
IDLE part holds no block and an ENDED one only RELEASED blocks (R17, R35, R37, R46, R50, R156). -/
abbrev WindowLegal (s : State) : Prop :=
  (∀ b ∈ s.window.blocks, b.slot < Config.slotCount ∧ b.number < s.window.counter ∧ b.first = firstPositionOf s b.number ∧
      b.fillLegal ∧ b.events.length ≤ Config.maxEvents ∧
      ∀ l ∈ Lane.all, (b.lanes.get l).isSome = s.pass.laneMask.getLsbD l.toNat) ∧
    (s.window.blocks.map (fun b => b.slot)).Nodup ∧
    s.window.blocks.IsChain (fun b c => c.number = b.number + 1) ∧
    s.window.blocks.Pairwise (fun b c => b.state ≠ .filling ∧ (c.state = .released → b.state = .released)) ∧
    s.window.counter ≤ Config.maxBlocks ∧ s.window.reviewHold ≤ Config.maxHold ∧
    (s.pass.state = .idle → s.window.blocks = []) ∧
    (s.pass.state = .ended → ∀ b ∈ s.window.blocks, b.state = .released) ∧
    (s.pass.runOutEnded = false → ∀ b ∈ s.window.blocks.getLast?, b.number + 1 = s.window.counter)

/-- The law of section 1.5, while the assembler may take entries: either a block is FILLING and the next position is its
first position plus its fill count, or no block is FILLING and the next position is the first position of the block that the
counter numbers. -/
abbrev NextPositionLaw (s : State) : Prop :=
  (s.pass.state = .running ∨ s.pass.state = .closing) → s.pass.runOutEnded = false →
    (∀ b ∈ fillingBlock s, s.scan.next = b.first + BitVec.ofNat 40 b.fill) ∧
      (fillingBlock s = none → s.scan.next = firstPositionOf s s.window.counter)

/-- The Defect Catalogue: 2048 entries at most, numbers 1 to 65535 and each held once, the entries in catalogue order, the
counter within 1 to 65535, and every cursor on a present entry or at END (R56 to R58, R63, R69). -/
abbrev CatalogueLegal (s : State) : Prop :=
  s.catalogue.entries.length ≤ Config.catalogueDepth ∧
    (∀ e ∈ s.catalogue.entries, 1 ≤ e.number ∧ e.number ≤ Config.maxEntryNumber) ∧
    (s.catalogue.entries.map (fun e => e.number)).Nodup ∧
    s.catalogue.entries.Pairwise (fun a b => entryBefore s b a = false) ∧
    1 ≤ s.catalogue.counter ∧ s.catalogue.counter ≤ Config.maxEntryNumber ∧
    ∀ p ∈ Port.all, ∀ n ∈ (s.catalogue.cursors.get p).target, n ∈ s.catalogue.entries.map (fun e => e.number)

/-- The anchors that a lane's work in flight has read. -/
def Work.anchors : Work → List SpanAnchors
  | .none => []
  | .live _ f => f.anchors
  | .reRender _ f => f.anchors

/-- The anchors that a work in flight has read hold no void value (R93, R96). -/
abbrev AnchorsSound (s : State) : Prop :=
  ∀ l ∈ Lane.all, ∀ a ∈ (s.engines.get l).work.anchors,
    a.anchors.left ≠ some Config.voidValue ∧ a.anchors.right ≠ some Config.voidValue

/-- No cell of a mended or restored array holds −8388608, the void value (Conventions 3.3, R96, R124). A cell's array is its
address over 2048, modulo 3 (sampleAddress). -/
def SamplesSound (s : State) : Prop :=
  ∀ a, (a / Config.blockSize) % 3 ≠ 0 → readCell s.window.memory a ≠ Config.voidValue

end Sys2Proof.Machine
end

