-- ==== Sys2Proof/Certificates/Slice0/Obligations.lean ====
section
/-! DEFINITION. The statements for the provers, as OBLIGATIONS.json lists them: what each command does where it completes,
what it leaves unchanged, and the invariants that every command keeps. -/

open Sys2Proof Sys2Proof.Machine

/-- For every command c, queue rest and state s, a step of s with c at the front of the queue and rest behind it
answers what exec c answers on s with the queue rest. On an empty queue a step answers the same state; that the part
idles then is the model's choice (log entry 4). -/
def Obligations.StepRunsFrontCommandOrIdles : Prop :=
  (∀ (c : Instr) (rest : List Instr) (s : State), step (s.withPending (c :: rest)) = exec c (s.withPending rest)) ∧
    ∀ s : State, s.pending = [] → step s = .next s

/-- In every state every command answers a next state, never a fault or a refusal; that a command whose event cannot
occur in the state (a taking from an empty FIFO, a part of a frame that the port does not allow) leaves the part as
it is, and completes, is the model's choice (log entry 5). The queue is as it was. READY is high exactly when the
pass is RUNNING and the scan FIFO holds 96 entries or fewer, and each port's attention output is asserted exactly
when its event set and mask have a flag in common. -/
def Obligations.EveryCommandCompletesAndJudgesOutputs : Prop :=
  ∀ (c : Instr) (s : State), ∃ t, exec c s = .next t ∧ t.pending = s.pending ∧ OutputsJudged t

/-- On a DESELECTED port: a whole frame with a code that names no request drives the status byte again and again and
ends with last result UNKNOWN; a frame that ends before its code or arguments are complete ends with SHORT; a select
pulse that carries no clock pulse leaves the last result as it was. Nothing else of the part changes. The status
byte of a port, here and in every reply, holds the code of its last result in bits 3..0 (DONE 0, CLAMPED 1, DENIED
2, STATE 3, ARG 4, LATE 5, NOENT 6, CONFLICT 7, FORCED 8, FULL 9, SHORT 10, UNKNOWN 11), in bit 4 whether its event
set and mask have a flag in common, in bit 5 whether the pass state is other than IDLE, and 0 in bits 7..6. -/
def Obligations.FramesWithoutRequestRecordTheirResult : Prop :=
  (∀ (s : State) (p : Port) (c : Byte) (n : Nat), s.portFree p → Request.ofCode c = none →
      exec (.unknownCode p (.whole c n)) s = .next (settle (s.frameEnded p .unknown (statusReply s p n)))) ∧
    (∀ (s : State) (p : Port) (a : ShortArgs) (n : Nat), s.portFree p → ShortArgs.wellFormed a = true →
      exec (.short p (.whole a n)) s = .next (settle (s.frameEnded p .short []))) ∧
    (∀ (s : State) (p : Port), s.portFree p →
      exec (.selectPulse p) s = .next (settle (s.frameEnded p (s.ports.get p).lastResult []))) ∧
    ∀ (s : State) (p : Port),
      let q := s.ports.get p
      (statusByte s p).toNat =
        (match q.lastResult with
          | .done => 0
          | .clamped => 1
          | .denied => 2
          | .state => 3
          | .arg => 4
          | .late => 5
          | .noent => 6
          | .conflict => 7
          | .forced => 8
          | .full => 9
          | .short => 10
          | .unknown => 11) +
          (if q.events &&& q.mask ≠ 0#11 then 16 else 0) + (if s.pass.state ≠ .idle then 32 else 0)

/-- The first two stages of the check, for every request, port and lane argument: DENIED where the port does not own
the resource the request requires (the LANE resource of the lane argument for LPUT and LEARN, none where it is above
3), else STATE where the pass state does not accept the request, else DONE. -/
def Obligations.AcceptanceChecksRightsThenPassState : Prop :=
  ∀ (s : State) (p : Port) (x : Byte),
    (acceptance s p .openPass x =
        if s.rights.pass ≠ p then .denied else if s.pass.state ≠ .idle then .state else .done) ∧
      (∀ r ∈ [Request.closePass, .splice], acceptance s p r x =
        if s.rights.pass ≠ p then .denied else if s.pass.state ≠ .running then .state else .done) ∧
      (acceptance s p .abort x = if s.rights.pass ≠ p then .denied else .done) ∧
      (acceptance s p .lput x =
        if (Lane.ofNat? x.toNat).any (fun l => s.rights.lanes.get l != p) = true then .denied else .done) ∧
      (acceptance s p .learn x =
        if (Lane.ofNat? x.toNat).any (fun l => s.rights.lanes.get l != p) = true then .denied
        else if s.pass.state ≠ .running then .state else .done) ∧
      (acceptance s p .hold x = if s.rights.review ≠ p then .denied else .done) ∧
      (acceptance s p .rls x =
        if s.rights.review ≠ p then .denied else if s.pass.state ≠ .running then .state else .done) ∧
      (acceptance s p .cdec x =
        if s.rights.review ≠ p then .denied
        else if s.pass.state ≠ .running ∧ s.pass.state ≠ .closing then .state else .done) ∧
      (∀ r ∈ [Request.dnext, .dack], acceptance s p r x = if s.rights.drain ≠ p then .denied else .done) ∧
      (∀ r ∈ [Request.grant, .rstp], acceptance s p r x = if s.rights.chief ≠ p then .denied else .done) ∧
      ∀ r ∈ [Request.cseek, .evclr, .evmask, .cwalk, .lget, .stat, .rights, .events, .caps, .probe],
        acceptance s p r x = .done

/-- For each of the twelve requests taken at frame end that a right or the pass state can refuse: where the check
answers DENIED or STATE, a whole frame on a DESELECTED port records that result, drives the status byte while it is
clocked, and leaves everything else of the part as it was. For each of the fifteen requests taken at frame end: a
frame sent in parts (the parts are the model's, log entry 6) with nothing between them (code and arguments, n clock
pulses, the rise of select) comes to what the whole frame comes to; and the rise of select on a port that has
received a whole request, whatever has happened since, acts by the rights and the pass state as they then stand: it
does what a whole frame would do in that state, refusals included, the nibbles driven apart. -/
def Obligations.RefusedRequestsChangeNothing : Prop :=
  ∀ (s : State) (p : Port),
    (∀ (a : OpenArgs) (n : Nat), s.portFree p → acceptance s p .openPass 0#8 ≠ .done →
        exec (.openPass p (.whole a n)) s = .next (settle (s.frameEnded p (acceptance s p .openPass 0#8) (statusReply s p n)))) ∧
      (∀ (a : Unit) (n : Nat), s.portFree p → acceptance s p .closePass 0#8 ≠ .done →
        exec (.closePass p (.whole a n)) s = .next (settle (s.frameEnded p (acceptance s p .closePass 0#8) (statusReply s p n)))) ∧
      (∀ (a : Unit) (n : Nat), s.portFree p → acceptance s p .abort 0#8 ≠ .done →
        exec (.abort p (.whole a n)) s = .next (settle (s.frameEnded p (acceptance s p .abort 0#8) (statusReply s p n)))) ∧
      (∀ (a : Position) (n : Nat), s.portFree p → acceptance s p .splice 0#8 ≠ .done →
        exec (.splice p (.whole a n)) s = .next (settle (s.frameEnded p (acceptance s p .splice 0#8) (statusReply s p n)))) ∧
      (∀ (a : LputArgs) (n : Nat), s.portFree p → acceptance s p .lput a.lane ≠ .done →
        exec (.lput p (.whole a n)) s = .next (settle (s.frameEnded p (acceptance s p .lput a.lane) (statusReply s p n)))) ∧
      (∀ (a : LearnArgs) (n : Nat), s.portFree p → acceptance s p .learn a.lane ≠ .done →
        exec (.learn p (.whole a n)) s = .next (settle (s.frameEnded p (acceptance s p .learn a.lane) (statusReply s p n)))) ∧
      (∀ (a : Byte) (n : Nat), s.portFree p → acceptance s p .hold 0#8 ≠ .done →
        exec (.hold p (.whole a n)) s = .next (settle (s.frameEnded p (acceptance s p .hold 0#8) (statusReply s p n)))) ∧
      (∀ (a : Word32) (n : Nat), s.portFree p → acceptance s p .rls 0#8 ≠ .done →
        exec (.rls p (.whole a n)) s = .next (settle (s.frameEnded p (acceptance s p .rls 0#8) (statusReply s p n)))) ∧
      (∀ (a : CdecArgs) (n : Nat), s.portFree p → acceptance s p .cdec 0#8 ≠ .done →
        exec (.cdec p (.whole a n)) s = .next (settle (s.frameEnded p (acceptance s p .cdec 0#8) (statusReply s p n)))) ∧
      (∀ (a : Word32) (n : Nat), s.portFree p → acceptance s p .dack 0#8 ≠ .done →
        exec (.dack p (.whole a n)) s = .next (settle (s.frameEnded p (acceptance s p .dack 0#8) (statusReply s p n)))) ∧
      (∀ (a : GrantArgs) (n : Nat), s.portFree p → acceptance s p .grant 0#8 ≠ .done →
        exec (.grant p (.whole a n)) s = .next (settle (s.frameEnded p (acceptance s p .grant 0#8) (statusReply s p n)))) ∧
      (∀ (a : Unit) (n : Nat), s.portFree p → acceptance s p .rstp 0#8 ≠ .done →
        exec (.rstp p (.whole a n)) s = .next (settle (s.frameEnded p (acceptance s p .rstp 0#8) (statusReply s p n)))) ∧
      (∀ (a : OpenArgs) (n : Nat), s.portFree p → OutputsJudged s → PartsMakeTheWhole (Instr.openPass p) a n s) ∧
      (∀ (a : Unit) (n : Nat), s.portFree p → OutputsJudged s → PartsMakeTheWhole (Instr.closePass p) a n s) ∧
      (∀ (a : Unit) (n : Nat), s.portFree p → OutputsJudged s → PartsMakeTheWhole (Instr.abort p) a n s) ∧
      (∀ (a : Position) (n : Nat), s.portFree p → OutputsJudged s → PartsMakeTheWhole (Instr.splice p) a n s) ∧
      (∀ (a : LputArgs) (n : Nat), s.portFree p → OutputsJudged s → PartsMakeTheWhole (Instr.lput p) a n s) ∧
      (∀ (a : LearnArgs) (n : Nat), s.portFree p → OutputsJudged s → PartsMakeTheWhole (Instr.learn p) a n s) ∧
      (∀ (a : Byte) (n : Nat), s.portFree p → OutputsJudged s → PartsMakeTheWhole (Instr.hold p) a n s) ∧
      (∀ (a : Word32) (n : Nat), s.portFree p → OutputsJudged s → PartsMakeTheWhole (Instr.rls p) a n s) ∧
      (∀ (a : CdecArgs) (n : Nat), s.portFree p → OutputsJudged s → PartsMakeTheWhole (Instr.cdec p) a n s) ∧
      (∀ (a : Word32) (n : Nat), s.portFree p → OutputsJudged s → PartsMakeTheWhole (Instr.dack p) a n s) ∧
      (∀ (a : GrantArgs) (n : Nat), s.portFree p → OutputsJudged s → PartsMakeTheWhole (Instr.grant p) a n s) ∧
      (∀ (a : Unit) (n : Nat), s.portFree p → OutputsJudged s → PartsMakeTheWhole (Instr.rstp p) a n s) ∧
      (∀ (a : CseekArgs) (n : Nat), s.portFree p → OutputsJudged s → PartsMakeTheWhole (Instr.cseek p) a n s) ∧
      (∀ (a : BitVec 16) (n : Nat), s.portFree p → OutputsJudged s → PartsMakeTheWhole (Instr.evclr p) a n s) ∧
      (∀ (a : BitVec 16) (n : Nat), s.portFree p → OutputsJudged s → PartsMakeTheWhole (Instr.evmask p) a n s) ∧
      (∀ a : OpenArgs, (s.ports.get p).frame = .replying →
        (s.ports.get p).received = Request.openPass.code :: a.toBytes → FinishActsAsThingsStand (Instr.openPass p) p a s) ∧
      (∀ a : Unit, (s.ports.get p).frame = .replying →
        (s.ports.get p).received = Request.closePass.code :: [] → FinishActsAsThingsStand (Instr.closePass p) p a s) ∧
      (∀ a : Unit, (s.ports.get p).frame = .replying →
        (s.ports.get p).received = Request.abort.code :: [] → FinishActsAsThingsStand (Instr.abort p) p a s) ∧
      (∀ a : Position, (s.ports.get p).frame = .replying →
        (s.ports.get p).received = Request.splice.code :: bytes5 a → FinishActsAsThingsStand (Instr.splice p) p a s) ∧
      (∀ a : LputArgs, (s.ports.get p).frame = .replying →
        (s.ports.get p).received = Request.lput.code :: a.toBytes → FinishActsAsThingsStand (Instr.lput p) p a s) ∧
      (∀ a : LearnArgs, (s.ports.get p).frame = .replying →
        (s.ports.get p).received = Request.learn.code :: a.toBytes → FinishActsAsThingsStand (Instr.learn p) p a s) ∧
      (∀ a : Byte, (s.ports.get p).frame = .replying →
        (s.ports.get p).received = Request.hold.code :: [a] → FinishActsAsThingsStand (Instr.hold p) p a s) ∧
      (∀ a : Word32, (s.ports.get p).frame = .replying →
        (s.ports.get p).received = Request.rls.code :: bytes4 a → FinishActsAsThingsStand (Instr.rls p) p a s) ∧
      (∀ a : CdecArgs, (s.ports.get p).frame = .replying →
        (s.ports.get p).received = Request.cdec.code :: a.toBytes → FinishActsAsThingsStand (Instr.cdec p) p a s) ∧
      (∀ a : Word32, (s.ports.get p).frame = .replying →
        (s.ports.get p).received = Request.dack.code :: bytes4 a → FinishActsAsThingsStand (Instr.dack p) p a s) ∧
      (∀ a : GrantArgs, (s.ports.get p).frame = .replying →
        (s.ports.get p).received = Request.grant.code :: a.toBytes → FinishActsAsThingsStand (Instr.grant p) p a s) ∧
      (∀ a : Unit, (s.ports.get p).frame = .replying →
        (s.ports.get p).received = Request.rstp.code :: [] → FinishActsAsThingsStand (Instr.rstp p) p a s) ∧
      (∀ a : CseekArgs, (s.ports.get p).frame = .replying →
        (s.ports.get p).received = Request.cseek.code :: a.toBytes → FinishActsAsThingsStand (Instr.cseek p) p a s) ∧
      (∀ a : BitVec 16, (s.ports.get p).frame = .replying →
        (s.ports.get p).received = Request.evclr.code :: bytes2 a → FinishActsAsThingsStand (Instr.evclr p) p a s) ∧
      (∀ a : BitVec 16, (s.ports.get p).frame = .replying →
        (s.ports.get p).received = Request.evmask.code :: bytes2 a → FinishActsAsThingsStand (Instr.evmask p) p a s)

/-- Whatever part of a frame an LGET, RIGHTS, EVENTS, STAT, CAPS, PROBE or DNEXT carries, the part afterwards
differs from the part before in that port alone, whose event set and event mask are as they were. A CWALK may
besides set that port's cursor, whose direction is kept. For each of these eight reads, sent in parts (the parts are
the model's, log entry 6) on a DESELECTED port with nothing between them: code and arguments and then n clock pulses
leave the port in REPLYING, having driven the n nibbles that the whole frame of n pulses drives, and the rise of
select then comes to what the whole frame comes to; and pulses sent in two runs, n and then m, come to a run of n +
m, in every state. -/
def Obligations.ReadsChangeOnlyTheirPort : Prop :=
  (∀ (s : State) (p : Port) (c : Instr),
      ((∃ f, c = .lget p f) ∨ (∃ f, c = .rights p f) ∨ (∃ f, c = .events p f) ∨ (∃ f, c = .stat p f) ∨
        (∃ f, c = .caps p f) ∨ (∃ f, c = .probe p f) ∨ (∃ f, c = .dnext p f)) →
      ∃ q : PortState, q.events = (s.ports.get p).events ∧ q.mask = (s.ports.get p).mask ∧
        exec c s = .next (settle { s with ports := s.ports.set p q })) ∧
    (∀ (s : State) (p : Port) (f : Frame Unit),
      ∃ (q : PortState) (x : Option Nat), q.events = (s.ports.get p).events ∧ q.mask = (s.ports.get p).mask ∧
        exec (.cwalk p f) s =
          .next (settle (({ s with ports := s.ports.set p q } : State).setCursor p
            ⟨x, (s.catalogue.cursors.get p).direction⟩))) ∧
    ∀ (s : State) (p : Port),
      (∀ (a : LgetArgs) (n : Nat), s.portFree p → OutputsJudged s → PartsDrive (Instr.lget p) p a n s) ∧
      (∀ (a : Unit) (n : Nat), s.portFree p → OutputsJudged s → PartsDrive (Instr.rights p) p a n s) ∧
      (∀ (a : Unit) (n : Nat), s.portFree p → OutputsJudged s → PartsDrive (Instr.events p) p a n s) ∧
      (∀ (a : Unit) (n : Nat), s.portFree p → OutputsJudged s → PartsDrive (Instr.stat p) p a n s) ∧
      (∀ (a : Byte) (n : Nat), s.portFree p → OutputsJudged s → PartsDrive (Instr.caps p) p a n s) ∧
      (∀ (a : ProbeArgs) (n : Nat), s.portFree p → OutputsJudged s → PartsDrive (Instr.probe p) p a n s) ∧
      (∀ (a : Byte) (n : Nat), s.portFree p → OutputsJudged s → PartsDrive (Instr.dnext p) p a n s) ∧
      (∀ (a : Unit) (n : Nat), s.portFree p → OutputsJudged s → PartsDrive (Instr.cwalk p) p a n s) ∧
      (∀ n m : Nat, RepliesJoin (Instr.lget p) n m s) ∧
      (∀ n m : Nat, RepliesJoin (Instr.rights p) n m s) ∧
      (∀ n m : Nat, RepliesJoin (Instr.events p) n m s) ∧
      (∀ n m : Nat, RepliesJoin (Instr.stat p) n m s) ∧
      (∀ n m : Nat, RepliesJoin (Instr.caps p) n m s) ∧
      (∀ n m : Nat, RepliesJoin (Instr.probe p) n m s) ∧
      (∀ n m : Nat, RepliesJoin (Instr.dnext p) n m s) ∧
      (∀ n m : Nat, RepliesJoin (Instr.cwalk p) n m s)

/-- A whole GRANT frame on a DESELECTED port: DENIED where the port does not own CHIEF, else ARG where the resource
code is above 7 or the port above 2; otherwise the named port becomes the owner of that resource, every other
resource keeps its owner, the result is DONE, no event is raised and nothing else changes. -/
def Obligations.GrantMovesOneRight : Prop :=
  (∀ (g : Rights) (r x : Resource) (p : Port), (g.grant r p).owner x = if x = r then p else g.owner x) ∧
    ∀ (s : State) (p : Port) (a : GrantArgs) (n : Nat), s.portFree p →
      (s.rights.owner .chief ≠ p →
        exec (.grant p (.whole a n)) s = .next (settle (s.frameEnded p .denied (statusReply s p n)))) ∧
      (s.rights.owner .chief = p → (7 < a.resource.toNat ∨ 2 < a.port.toNat) →
        exec (.grant p (.whole a n)) s = .next (settle (s.frameEnded p .arg (statusReply s p n)))) ∧
      ∀ (r : Resource) (x : Port), s.rights.owner .chief = p → Resource.all[a.resource.toNat]? = some r →
        Port.all[a.port.toNat]? = some x →
        exec (.grant p (.whole a n)) s =
          .next (settle ({ s with rights := s.rights.grant r x }.frameEnded p .done (statusReply s p n)))

/-- A whole RSTP frame on a DESELECTED port that owns CHIEF, in any pass state: the pass is IDLE with run-out ended
clear and its parameters kept; the scan FIFO, packet, fill, stall and tracker are cleared and the next position
kept; no block is in the window, the final block and release mark are absent, the review hold is 16 and the block
counter is kept; the catalogue is empty with its counter kept and every cursor at END, FORWARD; each lane engine
holds the default settings (click ratio 96, Tmin 256, guard 3, maxspan 16, long policy PASS, rhoA 4096, harmonics A
4, rhoB 2560, harmonics B 0, adapt shift 14, crossover shift 3, attack shift 2, release shift 9, open ratio 48, gmin
8192 and floor 0), no work, no learn, an IDLE detector with next position and envelope kept; every port's event set,
event mask and last result are cleared and its drain read, if any, is cut; the rights and the window memory are
kept. -/
def Obligations.RstpRestoresDefaults : Prop :=
  ∀ (s : State) (p : Port) (n : Nat), s.portFree p → s.rights.chief = p →
    ∃ t, exec (.rstp p (.whole () n)) s = .next t ∧
      t.pass = { s.pass with state := .idle, runOutEnded := false } ∧
      t.scan = { ScanInput.reset with next := s.scan.next } ∧ t.tracker = Tracker.reset ∧
      t.window = { s.window with blocks := [], finalBlock := none, reviewHold := 16, releaseMark := none } ∧
      t.catalogue = { s.catalogue with entries := [], cursors := PerPort.same ⟨none, .forward⟩ } ∧
      (∀ l, t.engines.get l =
        { settings :=
            { clickRatio := 96, tmin := 256, guardLen := 3, maxspan := 16, longPolicy := 0
              rhoA := 4096, harmonicsA := 4, rhoB := 2560, harmonicsB := 0, adaptShift := 14
              crossover := 3, attack := 2, release := 9, openRatio := 48, gmin := 8192, floor := 0 }
          work := .none, learn := ⟨.idle, 0, 0, 0, none⟩
          detector :=
            { state := .idle, next := (s.engines.get l).detector.next
              envelope := (s.engines.get l).detector.envelope, carry := [] } }) ∧
      t.rights = s.rights ∧ t.pending = s.pending ∧
      (t.ports.get p).frame = .deselected ∧ (t.ports.get p).driven = statusReply s p n ∧
      ∀ x, (t.ports.get x).events = 0#11 ∧ (t.ports.get x).mask = 0#11 ∧ (t.ports.get x).attention = false ∧
        (t.ports.get x).lastResult = .done ∧ ∀ d ∈ (t.ports.get x).drain, d.cut = true

/-- After PIN_RESET in any state every part of the state holds its value of State.reset, but for the window memory,
which keeps its contents (the manual gives it none at reset), and the rights table: every resource is owned by the
port that CHIEF[1:0] names, value 3 naming port 0. -/
def Obligations.PinResetGivesResetValues : Prop :=
  (∀ (c : BitVec 2) (s : State),
      exec (.pinReset c) s =
        .next (settle
          { State.reset with
            pending := s.pending
            window := { State.reset.window with memory := s.window.memory }
            rights := Rights.allTo (chiefPort c) })) ∧
    (∀ (r : Resource) (p : Port), (Rights.allTo p).owner r = p) ∧
    chiefPort 0#2 = .port0 ∧ chiefPort 1#2 = .port1 ∧ chiefPort 2#2 = .port2 ∧ chiefPort 3#2 = .port0

/-- The state after pin reset: pass IDLE, lane mask 0, width 24, HIGH-FIRST, start position 0, perf_min 128,
perf_max 65535, splice span 24, run-out ended clear; scan FIFO empty, READY low, packet NONE, no held header and no
packet context, pending fill 0, next position 0, no stall and no suspended entry, input ended clear; tracker
UNLOCKED with no S8, no last mark, slip or last published position, an empty history, both runs 0 and no held event
or start state; no block, block counter 0, review hold 16, no release mark, no final block; catalogue empty, entry
counter 1, cursors END, FORWARD; every lane with the default settings (click ratio 96, Tmin 256, guard 3, maxspan
16, long policy PASS, rhoA 4096, harmonics A 4, rhoB 2560, harmonics B 0, adapt shift 14, crossover shift 3, attack
shift 2, release shift 9, open ratio 48, gmin 8192 and floor 0), an IDLE detector at 0 with envelope 0, no work and
no learn; every port DESELECTED with empty event set and mask, last result DONE and attention deasserted. -/
def Obligations.ResetStateHoldsManualValues : Prop :=
  State.reset.pass.state = .idle ∧ State.reset.pass.laneMask = 0#4 ∧ State.reset.pass.width = .w24 ∧
    State.reset.pass.byteOrder = .highFirst ∧ State.reset.pass.start = 0#40 ∧ State.reset.pass.perfMin = 128 ∧
    State.reset.pass.perfMax = 65535 ∧ State.reset.pass.spliceSpan = 24 ∧ State.reset.pass.runOutEnded = false ∧
    State.reset.scan.fifo = [] ∧ State.reset.scan.ready = false ∧ State.reset.scan.packet = .none ∧
    State.reset.scan.pendingFill = 0 ∧ State.reset.scan.next = 0#40 ∧ State.reset.scan.inputEnded = false ∧
    State.reset.scan.heldWord = none ∧ State.reset.scan.context = none ∧ State.reset.scan.suspended = none ∧
    State.reset.scan.stall = ⟨false, false⟩ ∧
    State.reset.tracker.point = ⟨.unlocked, none⟩ ∧ State.reset.tracker.lastMark = none ∧
    State.reset.tracker.slipPosition = none ∧ State.reset.tracker.history = [] ∧ State.reset.tracker.validRun = 0 ∧
    State.reset.tracker.rejectRun = 0 ∧ State.reset.tracker.lastPublished = none ∧
    State.reset.tracker.heldStart = none ∧ State.reset.tracker.heldEvents = [] ∧ State.reset.window.blocks = [] ∧ State.reset.window.counter = 0 ∧
    State.reset.window.reviewHold = 16 ∧ State.reset.window.releaseMark = none ∧
    State.reset.window.finalBlock = none ∧ State.reset.catalogue.entries = [] ∧ State.reset.catalogue.counter = 1 ∧
    (∀ p, State.reset.catalogue.cursors.get p = ⟨none, .forward⟩) ∧
    (∀ l, State.reset.engines.get l =
      { settings :=
          { clickRatio := 96, tmin := 256, guardLen := 3, maxspan := 16, longPolicy := 0
            rhoA := 4096, harmonicsA := 4, rhoB := 2560, harmonicsB := 0, adaptShift := 14
            crossover := 3, attack := 2, release := 9, openRatio := 48, gmin := 8192, floor := 0 }
        work := .none, learn := ⟨.idle, 0, 0, 0, none⟩
        detector := { state := .idle, next := 0#40, envelope := 0, carry := [] } }) ∧
    ∀ p, (State.reset.ports.get p).frame = .deselected ∧ (State.reset.ports.get p).events = 0#11 ∧
      (State.reset.ports.get p).mask = 0#11 ∧ (State.reset.ports.get p).lastResult = .done ∧
      (State.reset.ports.get p).attention = false

/-- A whole HOLD frame on a DESELECTED port that owns REVIEW, in any pass state: the review hold becomes the value,
or 48 with result CLAMPED where the value is above 48, the release rule is evaluated under it, and nothing else
changes. -/
def Obligations.HoldSetsReviewHold : Prop :=
  ∀ (s : State) (p : Port) (h : Byte) (n : Nat), s.portFree p → s.rights.review = p →
    exec (.hold p (.whole h n)) s =
      .next (settle
        ((releaseRule { s with window := { s.window with reviewHold := min 48 h.toNat } }).frameEnded p
          (if h.toNat ≤ 48 then .done else .clamped) (statusReply s p n)))

/-- A whole RLS frame on a DESELECTED port that owns REVIEW, in RUNNING: the release mark becomes the argument, or
the larger of the mark and the argument where a mark is present, the result is DONE, the release rule is evaluated,
and nothing else changes. -/
def Obligations.RlsRaisesReleaseMark : Prop :=
  ∀ (s : State) (p : Port) (k : Word32) (n : Nat), s.portFree p → s.rights.review = p → s.pass.state = .running →
    exec (.rls p (.whole k n)) s =
      .next (settle
        ((releaseRule
            { s with
              window := { s.window with releaseMark := some (max (s.window.releaseMark.getD 0) k.toNat) } }).frameEnded
          p .done (statusReply s p n)))

/-- From a window in its legal form: a block that is RELEASED after the rule was RELEASED before it, or was HELD
with every lane record DONE and its hold waived (some block with every record DONE lies at least the review hold
above it, or the release mark is at or above it, or the pass is CLOSING), and every lower-numbered block is RELEASED
after the rule. A block still HELD that meets those conditions has a lower-numbered block that is not RELEASED.
Where a block is released, RELEASED is raised, every entry that starts in a block then released is fixed, no other
entry changes, and a CLOSING pass whose run-out has ended and whose blocks are all RELEASED becomes ENDED; where
none is, nothing changes. A block changes in its state alone, from HELD to RELEASED. The window's memory, counter,
final block, hold and mark, the cursors and the entry counter, Scan Input, the tracker, the engines, the rights and
the rest of the pass are as they were. -/
def Obligations.ReleaseRuleReleasesWhatItMay : Prop :=
  ∀ s : State, WindowLegal s →
    let waived := fun (k : Nat) =>
      (∃ d ∈ s.window.blocks, (∀ l r, d.lanes.get l = some r → r.render = .done) ∧
          k + s.window.reviewHold ≤ d.number) ∨
        (∃ m, s.window.releaseMark = some m ∧ k ≤ m) ∨ s.pass.state = .closing
    (∀ b ∈ (releaseRule s).window.blocks, b.state = .released →
        (∀ c ∈ (releaseRule s).window.blocks, c.number < b.number → c.state = .released) ∧
          ∃ c ∈ s.window.blocks, c.number = b.number ∧
            (c.state = .released ∨
              (c.state = .held ∧ (∀ l r, c.lanes.get l = some r → r.render = .done) ∧ waived c.number))) ∧
      (∀ b ∈ (releaseRule s).window.blocks, b.state = .held → (∀ l r, b.lanes.get l = some r → r.render = .done) →
        waived b.number → ∃ c ∈ (releaseRule s).window.blocks, c.number < b.number ∧ c.state ≠ .released) ∧
      (releaseRule s).window = { s.window with blocks := (releaseRule s).window.blocks } ∧
      (releaseRule s).scan = s.scan ∧ (releaseRule s).tracker = s.tracker ∧ (releaseRule s).engines = s.engines ∧
      (releaseRule s).rights = s.rights ∧ (releaseRule s).pending = s.pending ∧
      (releaseRule s).catalogue.counter = s.catalogue.counter ∧
      (∀ (i : Nat) (b c : Block), s.window.blocks[i]? = some b → (releaseRule s).window.blocks[i]? = some c →
        c = b ∨ (b.state = .held ∧ c = { b with state := .released })) ∧
      (releaseRule s).window.blocks.map (fun b => { b with state := BlockState.held }) =
        s.window.blocks.map (fun b => { b with state := BlockState.held }) ∧
      let newly := fun (k : Int) =>
        (∃ b ∈ s.window.blocks, (b.number : Int) = k ∧ b.state = .held) ∧
          ∃ c ∈ (releaseRule s).window.blocks, (c.number : Int) = k ∧ c.state = .released
      ((∀ k, ¬newly k) → releaseRule s = s) ∧
        ((∃ k, newly k) → raisedEverywhere .released (releaseRule s)) ∧ portsQuiet s (releaseRule s) ∧
        (releaseRule s).catalogue.cursors = s.catalogue.cursors ∧
        (releaseRule s).catalogue.entries.map (fun e => { e with fixed := true }) =
          s.catalogue.entries.map (fun e => { e with fixed := true }) ∧
        (∀ (i : Nat) (e y : Entry), s.catalogue.entries[i]? = some e → (releaseRule s).catalogue.entries[i]? = some y →
          (newly (blockNumberOf s e.start) → y.fixed = true) ∧
            (¬newly (blockNumberOf s e.start) → y.fixed = e.fixed)) ∧
        ((∃ k, newly k) → s.pass.state = .closing → s.pass.runOutEnded = true →
          (∀ c ∈ (releaseRule s).window.blocks, c.state = .released) →
          (releaseRule s).pass = { s.pass with state := .ended }) ∧
        (¬(s.pass.state = .closing ∧ s.pass.runOutEnded = true ∧
            ∀ c ∈ (releaseRule s).window.blocks, c.state = .released) →
          (releaseRule s).pass = s.pass)

/-- A whole CLOSE frame on a DESELECTED port that owns PASS, in RUNNING: the pass state becomes CLOSING and READY
low; the release rule is evaluated in CLOSING, and the blocks, the catalogue (with the entries that it fixes) and
the event sets are those it leaves, but that LEARNED is raised as well where a learn stores its floor; a lane's
ACTIVE learn with no counted block ends at once, its P15 becoming min(8388607, sum / count) where the count is 1 or
more; one with a counted block becomes ENDING with remaining 1; the other learns, the settings, detectors and works,
the rest of Scan Input, the tracker, the window memory, counter and marks, and the rights are as they were; the
result is DONE. -/
def Obligations.CloseMovesToClosing : Prop :=
  ∀ (s : State) (p : Port) (n : Nat), s.portFree p → s.rights.pass = p → s.pass.state = .running →
    s.pass.runOutEnded = false →
    let u := releaseRule { s with pass := { s.pass with state := .closing } }
    let learns := fun (l : Lane) =>
      (s.engines.get l).learn.state = .active ∧ (s.engines.get l).learn.counted = none ∧
        (s.engines.get l).learn.count ≠ 0
    ∃ t, exec (.closePass p (.whole () n)) s = .next t ∧
      t.pass = { s.pass with state := .closing } ∧ t.scan = { s.scan with ready := false } ∧ t.tracker = s.tracker ∧
      t.window = { s.window with blocks := u.window.blocks } ∧ t.catalogue = u.catalogue ∧
      t.rights = s.rights ∧ t.pending = s.pending ∧ t.catalogue.counter = s.catalogue.counter ∧
      t.catalogue.cursors = s.catalogue.cursors ∧
      (∀ l, (t.engines.get l).detector = (s.engines.get l).detector ∧
        (t.engines.get l).work = (s.engines.get l).work ∧
        (t.engines.get l).settings =
          (if learns l then
            { (s.engines.get l).settings with
              floor := min 8388607 ((s.engines.get l).learn.sum / (s.engines.get l).learn.count) }
          else (s.engines.get l).settings) ∧
        (t.engines.get l).learn =
          (if (s.engines.get l).learn.state ≠ .active then (s.engines.get l).learn
          else if (s.engines.get l).learn.counted = none then ⟨.idle, 0, 0, 0, none⟩
          else { (s.engines.get l).learn with state := .ending, remaining := 1 })) ∧
      ((∃ l, learns l) → raisedEverywhere .learned t ∧
        ∀ x, (t.ports.get x).events = (u.ports.get x).events ||| Event.learned.flag) ∧
      ((∀ l, ¬learns l) → ∀ x, (t.ports.get x).events = (u.ports.get x).events) ∧
      (t.ports.get p).lastResult = .done ∧ (∀ x, (t.ports.get x).mask = (s.ports.get x).mask) ∧
      ∀ x, x ≠ p → (t.ports.get x).quiet = (s.ports.get x).quiet

/-- A whole ABORT frame on a DESELECTED port that owns PASS answers DONE. In IDLE nothing else changes. In any other
state the pass becomes IDLE with run-out ended clear and its parameters kept; Scan Input is emptied with its next
position kept; the tracker is cleared; every block leaves the window and the final block becomes absent, hold, mark,
counter and memory kept; the catalogue is emptied with its counter kept and every cursor at END, FORWARD; each lane
engine keeps its settings and drops its span, carry, work and learn; every streaming drain read is cut; no event is
raised; rights, event sets, masks and the other ports' last results are kept. -/
def Obligations.AbortDiscardsThePass : Prop :=
  ∀ (s : State) (p : Port) (n : Nat), s.portFree p → s.rights.pass = p →
    (s.pass.state = .idle →
      exec (.abort p (.whole () n)) s = .next (settle (s.frameEnded p .done (statusReply s p n)))) ∧
    (s.pass.state ≠ .idle →
      exec (.abort p (.whole () n)) s =
        .next (settle
          (({ s with
              pass := { s.pass with state := .idle, runOutEnded := false }
              scan := { ScanInput.reset with next := s.scan.next }
              tracker := Tracker.reset
              window := { s.window with blocks := [], finalBlock := none }
              catalogue := { s.catalogue with entries := [], cursors := PerPort.same ⟨none, .forward⟩ }
              engines := s.engines.mapIdx (fun _ e =>
                { settings := e.settings, work := .none, learn := ⟨.idle, 0, 0, 0, none⟩
                  detector := { e.detector with state := .idle, carry := [] } })
              ports := s.ports.map (fun q =>
                { q with drain := q.drain.map (fun d => { d with cut := true }) }) } : State).frameEnded p .done
            (statusReply s p n))))

/-- A whole OPEN frame on a DESELECTED port that owns PASS, in IDLE. Where the lane mask is 0 or above 15, the width
field is not 12, 16, 20 or 24, or the byte order field is above 1, the result is ARG and nothing else changes.
Otherwise the pass is RUNNING with perf_min brought to 128 or more, perf_max to perf_min as clamped or more, and
splice span into 4..48; Scan Input is empty, READY high and the next position the start position; the tracker is
cleared; the window holds no block, counter 0, no mark and no final block, its hold and memory kept; the catalogue
is empty with counter 1 and every cursor at END, FORWARD; each lane engine keeps its settings, with an IDLE detector
of envelope 0 at the start position, no work and no learn; rights, event sets, masks and the other ports' last
results are kept; the result is CLAMPED where a clamp changed a value, else DONE. -/
def Obligations.OpenChecksClampsAndSetsUp : Prop :=
  ∀ (s : State) (p : Port) (a : OpenArgs) (n : Nat), s.portFree p → s.rights.pass = p → s.pass.state = .idle →
    ((a.laneMask = 0#8 ∨ 15 < a.laneMask.toNat ∨ a.format.toNat % 32 ∉ [12, 16, 20, 24] ∨ 1 < a.format.toNat / 32) →
      exec (.openPass p (.whole a n)) s = .next (settle (s.frameEnded p .arg (statusReply s p n)))) ∧
    ∀ (w : Width) (o : ByteOrder), 1 ≤ a.laneMask.toNat → a.laneMask.toNat ≤ 15 →
      w.bits = a.format.toNat % 32 → a.format.toNat / 32 = (if o = .highFirst then 0 else 1) →
      let lo := max 128 a.perfMin.toNat
      let hi := max lo a.perfMax.toNat
      let splice := max 4 (min 48 a.spliceSpan.toNat)
      ∃ t, exec (.openPass p (.whole a n)) s = .next t ∧
        t.pass =
          { state := .running, laneMask := a.laneMask.setWidth 4, width := w, byteOrder := o, start := a.start
            perfMin := lo, perfMax := hi, spliceSpan := splice, runOutEnded := false } ∧
        t.scan = { ScanInput.reset with ready := true, next := a.start } ∧ t.tracker = Tracker.reset ∧
        t.window = { s.window with blocks := [], counter := 0, finalBlock := none, releaseMark := none } ∧
        t.catalogue = { entries := [], counter := 1, cursors := PerPort.same ⟨none, .forward⟩ } ∧
        (∀ l, t.engines.get l =
          { settings := (s.engines.get l).settings, work := .none, learn := ⟨.idle, 0, 0, 0, none⟩
            detector := { state := .idle, next := a.start, envelope := 0, carry := [] } }) ∧
        t.rights = s.rights ∧ t.pending = s.pending ∧
        (t.ports.get p).lastResult =
          (if lo = a.perfMin.toNat ∧ hi = a.perfMax.toNat ∧ splice = a.spliceSpan.toNat then .done else .clamped) ∧
        (t.ports.get p).frame = .deselected ∧ (t.ports.get p).driven = statusReply s p n ∧
        (∀ x, (t.ports.get x).events = (s.ports.get x).events ∧ (t.ports.get x).mask = (s.ports.get x).mask) ∧
        ∀ x, x ≠ p → (t.ports.get x).quiet = (s.ports.get x).quiet

/-- A whole SPLICE frame on a DESELECTED port that owns PASS, in RUNNING, from a window in its legal form, with its
span start at the mark position less half the splice span. Where that start does not lie behind the splice horizon
(the first position of the lowest-numbered block whose every lane record is PENDING or WORKING under a live render,
or one past the newest block where every block has a render done), nor past the last position of the newest block,
the span has no position in common with a CLICK of an active lane or a SPLICE, and the catalogue has room: one
SPLICE entry of that start and the pass splice span is added, decision REPAIR decided by DEFAULT, under a number
assigned to it, CATHIGH being raised where the count of entries has become 1920 and no other event; every active
lane receives a stale request from the block of the start: a lane whose record in that block is PENDING is left as
it is, and of any other lane every DONE record from that block on becomes STALE and every WORKING one dirty; the
result is DONE; the pass, Scan Input, tracker, memory, engines, rights and cursors are as they were. -/
def Obligations.SpliceListsItsSpan : Prop :=
  ∀ (s : State) (p : Port) (mark : Position) (n : Nat), s.portFree p → s.rights.pass = p → s.pass.state = .running →
    WindowLegal s →
    let start := mark - BitVec.ofNat 40 (s.pass.spliceSpan / 2)
    ¬SpliceLate s start → ¬SpliceBeyond s start → ¬SpliceClash s start → s.catalogue.entries.length < 2048 →
    ∃ t, exec (.splice p (.whole mark n)) s = .next t ∧
      EntryAdded s t
        { number := 0, kind := .splice, lane := none, start := start, span := some s.pass.spliceSpan
          peak := none, decision := some .repair, decidedBy := .default, reported := none, fixed := false } ∧
      t.window = staledWindow s (activeLanes s) (blockNumberOf s start).toNat ∧
      t.pass = s.pass ∧ t.scan = { s.scan with ready := readyOf s } ∧ t.tracker = s.tracker ∧ t.engines = s.engines ∧
      t.rights = s.rights ∧ t.pending = s.pending ∧ (t.ports.get p).lastResult = .done ∧
      ∀ x, x ≠ p → (t.ports.get x).quiet = (s.ports.get x).quiet

/-- A whole SPLICE frame on a DESELECTED port that owns PASS, in RUNNING, from a window in its legal form: LATE
where the span start lies behind the splice horizon (the first position of the lowest-numbered block whose every
lane record is PENDING or WORKING under a live render, or one past the newest block where every block has a render
done; none where the window holds no block); else ARG where it lies past the last position of the newest block or
the window holds no block; else CONFLICT where the span would have a position in common with a CLICK of an active
lane or a SPLICE; else FULL where the catalogue holds 2048 entries. In each case nothing else changes. -/
def Obligations.SpliceRefusedChangesNothing : Prop :=
  ∀ (s : State) (p : Port) (mark : Position) (n : Nat), s.portFree p → s.rights.pass = p → s.pass.state = .running →
    WindowLegal s →
    let start := mark - BitVec.ofNat 40 (s.pass.spliceSpan / 2)
    let answers := fun (r : Result) =>
      exec (.splice p (.whole mark n)) s = .next (settle (s.frameEnded p r (statusReply s p n)))
    (SpliceLate s start → answers .late) ∧
      (¬SpliceLate s start → SpliceBeyond s start → answers .arg) ∧
      (¬SpliceLate s start → ¬SpliceBeyond s start → SpliceClash s start → answers .conflict) ∧
      (¬SpliceLate s start → ¬SpliceBeyond s start → ¬SpliceClash s start → 2048 ≤ s.catalogue.entries.length →
        answers .full)

/-- A whole LPUT frame on a DESELECTED port, in any pass state: for a lane code of 0 to 3 whose LANE right the port
owns and a parameter of 0 to 15 with range lo to hi, which is P0 16..1023, P1 0..65535, P2 2..8, P3 1..48, P4 0..1,
P5 1..65535, P6 0..8, P7 1..65535, P8 0..8, P9 6..24, P10 1..8, P11 1..12, P12 1..16, P13 16..255, P14 0..32768 and
P15 0..8388607, the lane's parameter becomes the value brought into lo..hi, and for P6 and P8 then into at most 12
less the other count; the result is CLAMPED where the stored value differs from the given one, else DONE; every
other parameter and everything else is as it was. P0 to P15 are, in order, click ratio, Tmin, guard, maxspan, long
policy, rhoA, harmonics A, rhoB, harmonics B, adapt shift, crossover shift, attack shift, release shift, open ratio,
gmin and floor. A lane code above 3, or a parameter above 15, is refused with ARG. -/
def Obligations.LputStoresBroughtIntoRange : Prop :=
  let ranges : List (Nat × Nat) :=
    [(16, 1023), (0, 65535), (2, 8), (1, 48), (0, 1), (1, 65535), (0, 8), (1, 65535), (0, 8), (6, 24), (1, 8), (1, 12),
     (1, 16), (16, 255), (0, 32768), (0, 8388607)]
  (∀ q : LaneSettings, (List.range 16).map q.get =
      [q.clickRatio, q.tmin, q.guardLen, q.maxspan, q.longPolicy, q.rhoA, q.harmonicsA, q.rhoB, q.harmonicsB,
        q.adaptShift, q.crossover, q.attack, q.release, q.openRatio, q.gmin, q.floor].map some) ∧
    (∀ (q : LaneSettings) (i j v : Nat), i < 16 → (q.put i v).get j = if j = i then some v else q.get j) ∧
    (∀ (s : State) (p : Port) (a : LputArgs) (n : Nat) (l : Lane) (lo hi : Nat), s.portFree p →
      Lane.all[a.lane.toNat]? = some l → s.rights.lanes.get l = p → ranges[a.parameter.toNat]? = some (lo, hi) →
      let i := a.parameter.toNat
      let q := (s.engines.get l).settings
      let c := max lo (min a.value.toNat hi)
      let v := if i = 6 then min c (12 - q.harmonicsB) else if i = 8 then min c (12 - q.harmonicsA) else c
      exec (.lput p (.whole a n)) s =
        .next (settle
          ({ s with engines := s.engines.set l { s.engines.get l with settings := q.put i v } }.frameEnded p
            (if v = a.value.toNat then .done else .clamped) (statusReply s p n)))) ∧
    (∀ (s : State) (p : Port) (a : LputArgs) (n : Nat), s.portFree p → 3 < a.lane.toNat →
      exec (.lput p (.whole a n)) s = .next (settle (s.frameEnded p .arg (statusReply s p n)))) ∧
    ∀ (s : State) (p : Port) (a : LputArgs) (n : Nat) (l : Lane), s.portFree p → Lane.all[a.lane.toNat]? = some l →
      s.rights.lanes.get l = p → 15 < a.parameter.toNat →
      exec (.lput p (.whole a n)) s = .next (settle (s.frameEnded p .arg (statusReply s p n)))

/-- A whole LEARN frame on a DESELECTED port, in RUNNING: for an active lane whose LANE right the port owns and a
count n of 1 or more, the lane's learn becomes ACTIVE with remaining n, or 64 with result CLAMPED where n is above
64, sum and count 0 and no counted block, and nothing else changes; for a lane outside the active lane set, a count
of 0, or a lane code above 3, which names no lane and so needs no right, the result is ARG and nothing changes. -/
def Obligations.LearnStartsALearn : Prop :=
  (∀ (s : State) (p : Port) (a : LearnArgs) (n : Nat), s.portFree p → 3 < a.lane.toNat → s.pass.state = .running →
      exec (.learn p (.whole a n)) s = .next (settle (s.frameEnded p .arg (statusReply s p n)))) ∧
  ∀ (s : State) (p : Port) (a : LearnArgs) (n : Nat) (l : Lane), s.portFree p → Lane.all[a.lane.toNat]? = some l →
    s.rights.lanes.get l = p → s.pass.state = .running →
    (s.pass.laneMask.getLsbD l.toNat = true → a.blocks ≠ 0#8 →
      exec (.learn p (.whole a n)) s =
        .next (settle
          ({ s with
              engines := s.engines.set l
                { s.engines.get l with learn := ⟨.active, min 64 a.blocks.toNat, 0, 0, none⟩ } }.frameEnded p
            (if a.blocks.toNat ≤ 64 then .done else .clamped) (statusReply s p n)))) ∧
    ((s.pass.laneMask.getLsbD l.toNat = false ∨ a.blocks = 0#8) →
      exec (.learn p (.whole a n)) s = .next (settle (s.frameEnded p .arg (statusReply s p n))))

/-- A whole LGET frame on a DESELECTED port, with any right and in any pass state, drives the status byte, then the
stored value of the named lane and parameter as four bytes, most significant first, or four zero bytes where the
lane code is above 3 or the parameter above 15, then 0; the result is DONE and nothing else changes. -/
def Obligations.LgetReturnsTheStoredValue : Prop :=
  ∀ (s : State) (p : Port) (a : LgetArgs) (n : Nat), s.portFree p →
    let v := (((Lane.all[a.lane.toNat]?).bind
      (fun l => (s.engines.get l).settings.get a.parameter.toNat)).getD 0)
    exec (.lget p (.whole a n)) s =
      .next (settle (s.frameEnded p .done
        (readReply s p
          [BitVec.ofNat 8 (v / 2 ^ 24), BitVec.ofNat 8 (v / 2 ^ 16), BitVec.ofNat 8 (v / 2 ^ 8), BitVec.ofNat 8 v] n)))

/-- A whole CDEC frame on a DESELECTED port that owns REVIEW, in RUNNING or CLOSING, with decision code 1 REPAIR, 2
PASS or 3 HOLD, naming a present entry that is not fixed and may hold the decision: the entry's decision is set and
decided by REVIEW, every other entry is as it was. Where the decision is the one it had, no lane is staled. Where it
changes, each affected lane (its lane, or every active lane for a lane-absent entry) receives a stale request from
the block of the entry's start: a lane whose record in that block is PENDING is left as it is, so that for an entry
of that one lane nothing in the window changes; of any other lane every DONE record from that block on becomes STALE
and every WORKING one dirty. The result is DONE; memory, pass, tracker, engines, rights and cursors are as they
were. -/
def Obligations.CdecChangesTheDecision : Prop :=
  ∀ (s : State) (p : Port) (a : CdecArgs) (n : Nat) (d : Decision) (e : Entry), s.portFree p → s.rights.review = p →
    (s.pass.state = .running ∨ s.pass.state = .closing) →
    (a.decision = match d with | .repair => 1#8 | .pass => 2#8 | .hold => 3#8) →
    entryNumbered s a.number.toNat = some e → e.fixed = false → decisionForced s e d = false →
    let k := (blockNumberOf s e.start).toNat
    ∃ t, exec (.cdec p (.whole a n)) s = .next t ∧
      t.catalogue =
        { s.catalogue with
          entries := s.catalogue.entries.map (fun x =>
            if x.number = e.number then { x with decision := some d, decidedBy := .review } else x) } ∧
      (e.decision = some d → t.window = s.window) ∧
      (e.decision ≠ some d → e.lane = none → t.window = staledWindow s (activeLanes s) k) ∧
      (∀ l : Lane, e.decision ≠ some d → e.lane = some l → t.window = staledWindow s [l] k) ∧
      (∀ (l : Lane) (b : Block) (r : LaneRecord), e.decision ≠ some d → e.lane = some l → blockNumbered s k = some b →
        b.lanes.get l = some r → r.render = .pending → t.window = s.window) ∧
      (∀ (l : Lane) (b : Block) (r : LaneRecord), e.decision ≠ some d → e.lane = some l → blockNumbered s k = some b →
        b.lanes.get l = some r → r.render ≠ .pending →
        t.window =
          { s.window with
            blocks := s.window.blocks.map (fun c =>
              if k ≤ c.number then
                c.mapRecord l (fun x =>
                  if x.render = .done then { x with render := .stale }
                  else if x.render = .working then { x with dirty := true } else x)
              else c) }) ∧
      t.pass = s.pass ∧ t.scan = { s.scan with ready := readyOf s } ∧ t.tracker = s.tracker ∧ t.engines = s.engines ∧
      t.rights = s.rights ∧ t.pending = s.pending ∧ (t.ports.get p).lastResult = .done ∧
      (∀ x, (t.ports.get x).events = (s.ports.get x).events ∧ (t.ports.get x).mask = (s.ports.get x).mask) ∧
      ∀ x, x ≠ p → (t.ports.get x).quiet = (s.ports.get x).quiet

/-- A whole CDEC frame on a DESELECTED port that owns REVIEW, in RUNNING or CLOSING: ARG where the decision code
names no decision; else NOENT where no present entry has the number; else LATE where the entry is fixed; else FORCED
where it is a SLIP, or a VOID or GAP asked to PASS, or a SPLICE asked to PASS whose span holds, on an active lane, a
position that is void or not yet written. In each case nothing else changes. -/
def Obligations.CdecRefusedChangesNothing : Prop :=
  ∀ (s : State) (p : Port) (a : CdecArgs) (n : Nat), s.portFree p → s.rights.review = p →
    (s.pass.state = .running ∨ s.pass.state = .closing) →
    let answers := fun (r : Result) =>
      exec (.cdec p (.whole a n)) s = .next (settle (s.frameEnded p r (statusReply s p n)))
    (a.decision.toNat ∉ [1, 2, 3] → answers .arg) ∧
      (a.decision.toNat ∈ [1, 2, 3] → (∀ e ∈ s.catalogue.entries, e.number ≠ a.number.toNat) → answers .noent) ∧
      ∀ e : Entry, a.decision.toNat ∈ [1, 2, 3] → entryNumbered s a.number.toNat = some e →
        (e.fixed = true → answers .late) ∧
          (e.fixed = false →
            (e.kind = .slip ∨ (a.decision = 2#8 ∧ (e.kind = .void ∨ e.kind = .gap)) ∨
              (a.decision = 2#8 ∧ e.kind = .splice ∧
                ∃ i l, i < e.span.getD 0 ∧ l ∈ activeLanes s ∧
                  (originalAt s l (e.start + BitVec.ofNat 40 i) = none ∨
                    originalAt s l (e.start + BitVec.ofNat 40 i) = some Config.voidValue))) →
            answers .forced)

/-- A whole DNEXT frame on a DESELECTED port, in any pass state: with the DRAIN right and a selector of 0 to 3 it
drives the status byte, then the drain record of the lowest-numbered RELEASED block (0 throughout where no block is
RELEASED), then 0, and records DONE; without the right, or with a selector above 3, it drives zeros after the status
byte and records DENIED or ARG. Nothing else changes. The record is, in this order: the 46 header bytes of the table
of R195 (kind 1, selector, block number, first position, fill count, lane mask, film flags, input peaks present, and
the unlisted counts, input peaks, output peaks and entry count); the 16 bytes of the table of R194 for each entry
that starts in the block, in catalogue order; and the samples of the restored array, then of the original array for
selectors 1 and 3 and of the mended array for 2 and 3, by position and then by active lane, three bytes each. With E
entries, n lanes, fill count f and A arrays it is 46 + 16 E + 3 n f A bytes long. In parts: once code and argument
have passed the check the drain read is unbound and uncut. Pulses of the status byte leave it so. From the first
header byte on, at a byte boundary, n pulses more: an unbound read is bound to the drain head as it then stands, or
to NONE, and a bound one stays bound, whatever is released meanwhile; an uncut read of a block in the window drives
the next n nibbles of that block's record, one bound to NONE or cut drives zeros and stays cut; bytes shifted counts
the bytes begun, up to the record length (46 for the empty record; log entry 24). Then the rise of select records
DONE. -/
def Obligations.DnextStreamsTheHeadRecord : Prop :=
  (∀ (s : State) (p : Port) (x : Byte) (n : Nat) (b : Block), s.portFree p → s.rights.drain = p → x.toNat ≤ 3 →
      drainHead s = some b → blockNumbered s b.number = some b →
      exec (.dnext p (.whole x n)) s =
        .next (settle (s.frameEnded p .done (readReply s p (drainRecord s x.toNat b) n)))) ∧
    (∀ (s : State) (p : Port) (x : Byte) (n : Nat), s.portFree p → s.rights.drain = p → x.toNat ≤ 3 →
      drainHead s = none → exec (.dnext p (.whole x n)) s = .next (settle (s.frameEnded p .done (readReply s p [] n)))) ∧
    (∀ (s : State) (p : Port) (x : Byte) (n : Nat), s.portFree p → s.rights.drain ≠ p →
      exec (.dnext p (.whole x n)) s = .next (settle (s.frameEnded p .denied (readReply s p [] n)))) ∧
    (∀ (s : State) (p : Port) (x : Byte) (n : Nat), s.portFree p → s.rights.drain = p → 3 < x.toNat →
      exec (.dnext p (.whole x n)) s = .next (settle (s.frameEnded p .arg (readReply s p [] n)))) ∧
    (∀ (s : State) (x : Nat) (b : Block), x ≤ 3 →
      drainRecord s x b =
        headerFields s x b ++
          (s.catalogue.entries.filter (fun e => blockNumberOf s e.start = (b.number : Int))).flatMap entryItem ++
          sampleFields s b .restored ++ (if x = 1 ∨ x = 3 then sampleFields s b .original else []) ++
          (if 2 ≤ x then sampleFields s b .mended else []) ∧
      (drainRecord s x b).length =
        46 + 16 * (entriesOf s b).length +
          3 * (activeLanes s).length * b.fill * (if x = 0 then 1 else if x = 3 then 3 else 2)) ∧
    (∀ (s : State) (p : Port) (x : Byte), s.portFree p → s.rights.drain = p → x.toNat ≤ 3 →
      ∃ t, exec (.dnext p (.receive x)) s = .next t ∧ (t.ports.get p).frame = .replying ∧
        (t.ports.get p).received = Request.dnext.code :: byteArg x ∧ (t.ports.get p).verdict = .done ∧
        (t.ports.get p).pulses = 0 ∧ (t.ports.get p).item = [] ∧ (t.ports.get p).driven = [] ∧
        (t.ports.get p).drain = some ⟨x.toNat, .unchosen, 0, 0, false⟩) ∧
    ∀ (s : State) (p : Port) (x : Byte) (d : DrainRead) (n : Nat),
      let q := s.ports.get p
      let j := q.pulses
      q.frame = .replying → q.received = Request.dnext.code :: byteArg x → q.verdict = .done → q.item = [] →
      q.drain = some d →
      (∃ t, exec (.dnext p .finish) s = .next t ∧ (t.ports.get p).lastResult = .done) ∧
      (j + n ≤ 2 → ∃ t, exec (.dnext p (.reply n)) s = .next t ∧ (t.ports.get p).drain = some d) ∧
      (2 ≤ j → j % 2 = 0 → 1 ≤ n →
        let streams := fun (record : List Byte) (e : DrainRead) =>
          ∃ t, exec (.dnext p (.reply n)) s = .next t ∧
            (t.ports.get p).driven =
              q.driven ++ (List.range n).map (fun i => nibbleOf (record.getD ((j + i) / 2 - 1) 0#8) (j + i)) ∧
            (t.ports.get p).drain = some { e with shifted := min e.length ((j + n - 1) / 2) } ∧
            (t.ports.get p).pulses = j + n ∧ (t.ports.get p).frame = .replying ∧
            (t.ports.get p).received = q.received ∧ (t.ports.get p).verdict = .done ∧ (t.ports.get p).item = []
        (∀ b : Block, d.bound = .unchosen → drainHead s = some b → blockNumbered s b.number = some b →
          streams (if d.cut = true then [] else drainRecord s d.selector b)
            { d with bound := .block b.number, length := (drainRecord s d.selector b).length }) ∧
        (d.bound = .unchosen → drainHead s = none → streams [] { d with bound := .nothing, length := 46 }) ∧
        (d.bound = .nothing → streams [] d) ∧
        (∀ (k : Nat) (b : Block), d.bound = .block k → blockNumbered s k = some b → d.cut = false →
          streams (drainRecord s d.selector b) d) ∧
        (∀ k : Nat, d.bound = .block k → d.cut = true → streams [] d))

/-- A whole DACK frame on a DESELECTED port that owns DRAIN. Where no block is RELEASED or the number is not the
drain head's: NOENT, and nothing else changes. Where it is the head's: every entry that starts in that block leaves
the catalogue; a cursor on one of them moves to the first of the entries after it that stays, or END, every other
cursor stays, and no direction changes; drain reads bound to the block on other ports are cut; the result is DONE.
With no stall under way the block leaves the window, whose memory and marks, and the tracker, engines and rights,
are as they were; the pass is as it was, but that in CLOSING with the run-out ended it becomes ENDED where the
blocks left are all RELEASED, and in CLOSING with the run-out ended or in ENDED it becomes IDLE, the final block
absent and PASSEND raised, where none is left. With a stall under way, in RUNNING or CLOSING (for CLOSING by the
model's reading, log entry 13), no other slot being FREE, the stall ends and the freed slot is secured for the block
that the counter numbers; the work that stalled is resumed without a timeout of the tracker: at word B of a valid
header at the expected position the packet is OPEN there; within a DATA word the partial bits and the bits not yet
unpacked become the next samples, the word and bit counts by the model's reading (log entry 15); within a gap or a
fault fill the pending void positions are written, the GAP or LINK film flag set, and the packet is opened or ended
as before, with no event: LINK was raised before the stall, by the model's choice (log entry 26). The suspended
entry is then done with. -/
def Obligations.DackFreesTheHead : Prop :=
  ∀ (s : State) (p : Port) (k : Word32) (n : Nat), s.portFree p → s.rights.drain = p →
    let left := s.window.blocks.filter (fun c => c.number ≠ k.toNat)
    let freed := fun (t : State) =>
      EntriesRemoved s t k.toNat ∧
        (∀ x, x ≠ p → ∀ d ∈ (t.ports.get x).drain, d.bound = .block k.toNat → d.cut = true) ∧
        (t.ports.get p).lastResult = .done ∧ t.engines = s.engines ∧ t.rights = s.rights ∧ t.pending = s.pending
    let quiet := fun (t : State) =>
      ∀ x, (t.ports.get x).events = (s.ports.get x).events ∧ (t.ports.get x).mask = (s.ports.get x).mask
    ((∀ b, drainHead s = some b → b.number ≠ k.toNat) →
      exec (.dack p (.whole k n)) s = .next (settle (s.frameEnded p .noent (statusReply s p n)))) ∧
    (∀ (b : Block) (e : FifoEntry) (bits : Nat), drainHead s = some b → b.number = k.toNat → WindowLegal s →
      (s.pass.state = .running ∨ s.pass.state = .closing) → s.pass.runOutEnded = false →
      s.scan.stall.waiting = true → s.scan.suspended = some ⟨e, bits⟩ → e.loss = false →
      fillingBlock s = none → s.window.counter < 2 ^ 28 → NoneFree s →
      let secured := newBlock s b.slot
      let resumed := fun (t : State) (x : Block) (y : ScanInput) =>
        exec (.dack p (.whole k n)) s = .next t ∧ freed t ∧ quiet t ∧ t.pass = s.pass ∧
          t.tracker = { s.tracker with heldEvents := [], heldStart := none } ∧
          t.window =
            { s.window with
              memory := t.window.memory, blocks := left ++ [x], counter := s.window.counter + 1 } ∧
          t.scan = { y with ready := readyOf s, stall := ⟨false, false⟩, suspended := none }
      let filled := fun (t : State) (d skip : Nat) => VoidsWritten s t secured 0 d skip
      (∀ a : Word32, bits = 0 → e.tag = .head → s.scan.packet = .header → s.scan.pendingFill = 0 →
        s.scan.heldWord = some a → a.toNat % 256 = s.pass.laneMask.toNat → 1 ≤ a.toNat / 65536 →
        a.toNat / 65536 ≤ 1024 → e.word = s.scan.next.setWidth 32 →
        ∃ t, t.window.memory = s.window.memory ∧
          resumed t secured
            { s.scan with packet := .opened, heldWord := none, context := some (packetAt s a s.scan.next) }) ∧
      (∀ (a : Word32) (d : Nat), e.tag = .head → s.scan.packet = .header → s.scan.pendingFill = d →
        s.scan.heldWord = some a → s.scan.context = none → 1 ≤ d → d ≤ 2048 → NextPositionLaw s →
        Memory.wf s.window.memory → NoTimeout s d →
        ∃ t, filled t d 0 ∧
          resumed t { secured.grown d with filmGap := true }
            { s.scan with
              packet := .opened, heldWord := none, pendingFill := 0, next := s.scan.next + BitVec.ofNat 40 d
              context := some (packetAt s a (s.scan.next + BitVec.ofNat 40 d)) }) ∧
      (∀ (x : PacketContext) (d : Nat), (e.tag = .head ∨ e.tag = .close) →
        (s.scan.packet = .opened ∨ s.scan.packet = .damaged) → s.scan.pendingFill = d → s.scan.context = some x →
        1 ≤ d → d ≤ 1024 → NextPositionLaw s → Memory.wf s.window.memory → NoTimeout s d →
        ∃ t, filled t d x.lanesWritten ∧
          resumed t { secured.grown d with filmLink := true }
            { s.scan with
              packet := if e.tag = .head then .header else .none
              heldWord := if e.tag = .head then some e.word else s.scan.heldWord
              context := none, pendingFill := 0, next := s.scan.next + BitVec.ofNat 40 d }) ∧
      ∀ x : PacketContext, e.tag = .data → s.scan.packet = .opened → s.scan.context = some x →
        x.partialBits.length + 1 = s.pass.width.bits → bits < 32 → x.lanesWritten < (activeLanes s).length →
        (s.scan.next - x.first).toNat < x.count → NextPositionLaw s → Memory.wf s.window.memory →
        let w := s.pass.width.bits
        let lanes := (activeLanes s).length
        let stream := x.partialBits ++ (wordBits s.pass.byteOrder e.word).drop bits
        let lacking := lanes * (x.count - (s.scan.next - x.first).toNat) - x.lanesWritten
        let m := min (stream.length / w) lacking
        let done := (x.lanesWritten + m) / lanes
        NoTimeout s done →
        ∃ t, SamplesWritten s t secured 0 m x.lanesWritten w stream ∧
          resumed t (secured.grown done)
            { s.scan with
              next := s.scan.next + BitVec.ofNat 40 done
              context := some
                { x with
                  lanesWritten := (x.lanesWritten + m) % lanes
                  partialBits := if m = lacking then [] else stream.drop (m * w) } }) ∧
    ∀ b : Block, drainHead s = some b → b.number = k.toNat → s.scan.stall.waiting = false →
      ∃ t, exec (.dack p (.whole k n)) s = .next t ∧ freed t ∧
        t.window.memory = s.window.memory ∧ t.tracker = s.tracker ∧
        t.scan = { s.scan with ready := t.scan.ready } ∧
        (s.pass.state = .running →
          t.window = { s.window with blocks := left } ∧ t.pass = s.pass ∧ t.scan = { s.scan with ready := readyOf s } ∧
            quiet t) ∧
        (s.pass.state = .closing →
          (s.pass.runOutEnded = false ∨ (∃ c ∈ left, c.state ≠ .released) →
            t.window = { s.window with blocks := left } ∧ t.pass = s.pass ∧ quiet t) ∧
          (s.pass.runOutEnded = true → left ≠ [] → (∀ c ∈ left, c.state = .released) →
            t.window = { s.window with blocks := left } ∧ t.pass = { s.pass with state := .ended } ∧ quiet t) ∧
          (s.pass.runOutEnded = true → left = [] →
            t.window = { s.window with blocks := [], finalBlock := none } ∧ t.pass = { s.pass with state := .idle } ∧
              raisedEverywhere .passend t)) ∧
        (s.pass.state = .ended → left ≠ [] →
          t.window = { s.window with blocks := left } ∧ t.pass = s.pass ∧ quiet t) ∧
        (s.pass.state = .ended → left = [] →
          t.pass = { s.pass with state := .idle } ∧ t.window = { s.window with blocks := [], finalBlock := none } ∧
            raisedEverywhere .passend t)

/-- On a DESELECTED port, with any right and in any pass state: a whole RIGHTS frame drives the status byte, then
the owner port of PASS, LANE0, LANE1, LANE2, LANE3, REVIEW, DRAIN and CHIEF, a byte each, then 0; a whole CAPS frame
drives the status byte, then the bytes from its offset on of the 32 bytes of the capability page (part code 0x0436,
revision 1, then the counts and limits of the table of R196), and 0xFF past the end of the page. The result is DONE
and nothing else changes. -/
def Obligations.RightsAndCapsReplies : Prop :=
  (∀ (s : State) (p : Port) (n : Nat), s.portFree p →
      exec (.rights p (.whole () n)) s =
        .next (settle (s.frameEnded p .done
          (readReply s p
            ([s.rights.pass, s.rights.lanes.lane0, s.rights.lanes.lane1, s.rights.lanes.lane2, s.rights.lanes.lane3,
              s.rights.review, s.rights.drain, s.rights.chief].map (fun x => BitVec.ofNat 8 x.toNat)) n)))) ∧
    ∀ (s : State) (p : Port) (o : Byte) (n : Nat), s.portFree p →
      let page : List Byte :=
        fieldBytes 2 0x0436 ++ fieldBytes 1 1 ++ fieldBytes 1 4 ++ fieldBytes 1 3 ++ fieldBytes 1 64 ++
          fieldBytes 2 2048 ++ fieldBytes 2 2048 ++ fieldBytes 1 128 ++ fieldBytes 2 1920 ++ fieldBytes 1 48 ++
          fieldBytes 1 64 ++ fieldBytes 2 1024 ++ fieldBytes 1 32 ++ fieldBytes 1 17 ++ fieldBytes 1 12 ++
          fieldBytes 1 4 ++ fieldBytes 1 48 ++ fieldBytes 1 128 ++ fieldBytes 9 0
      exec (.caps p (.whole o n)) s =
        .next (settle (s.frameEnded p .done
          (replyNibbles
            (fun i => if i = 0 then statusByte s p else page.getD (o.toNat + (i - 1)) 0xFF#8) n)))

/-- On a DESELECTED port, with any right and in any pass state: a whole EVENTS frame drives the status byte, the
event set and the event mask, two bytes each with bits 15..11 zero, then 0, and clears nothing; a whole EVCLR frame
clears in that port's event set every flag that bits 10..0 of its mask select; a whole EVMASK frame makes that
port's event mask bits 10..0 of its argument. The result is DONE, no other port and nothing else changes. -/
def Obligations.EventRequestsActOnTheirPort : Prop :=
  ∀ (s : State) (p : Port) (n : Nat), s.portFree p →
    (exec (.events p (.whole () n)) s =
      .next (settle (s.frameEnded p .done
        (readReply s p
          [BitVec.ofNat 8 ((s.ports.get p).events.toNat / 256), BitVec.ofNat 8 (s.ports.get p).events.toNat,
            BitVec.ofNat 8 ((s.ports.get p).mask.toNat / 256), BitVec.ofNat 8 (s.ports.get p).mask.toNat] n)))) ∧
      (∀ m : BitVec 16, exec (.evclr p (.whole m n)) s =
        .next (settle
          ({ s with
              ports := s.ports.set p
                { s.ports.get p with events := (s.ports.get p).events &&& ~~~(m.setWidth 11) } }.frameEnded
            p .done (statusReply s p n)))) ∧
      ∀ m : BitVec 16, exec (.evmask p (.whole m n)) s =
        .next (settle
          ({ s with ports := s.ports.set p { s.ports.get p with mask := m.setWidth 11 } }.frameEnded
            p .done (statusReply s p n)))

/-- A whole STAT frame on a DESELECTED port, with any right and in any pass state, drives the status byte, then the
49 bytes of the STAT layout: pass state; the slot counts FREE, FILLING, FULL, HELD, RELEASED; the presence byte; the
oldest, newest and drain head block numbers; the entry count; the port's cursor target and direction; the lock
state; and for each lane its current work, its block and its learn remaining count (0 outside the active lane set),
each field most significant byte first under the codes of R191; then 0. The result is DONE and nothing else changes.
-/
def Obligations.StatReturnsFortyNineBytes : Prop :=
  ∀ (s : State) (p : Port) (n : Nat), s.portFree p →
    let blocksIn := fun (x : BlockState) => (s.window.blocks.filter (fun b => b.state = x)).length
    let oldest := s.window.blocks.head?.map (fun b => b.number)
    let newest := s.window.blocks.getLast?.map (fun b => b.number)
    let head := (s.window.blocks.find? (fun b => b.state == .released)).map (fun b => b.number)
    let data : List Byte :=
      fieldBytes 1 (match s.pass.state with
        | .idle => 0
        | .running => 1
        | .closing => 2
        | .ended => 3) ++
        fieldBytes 1 (64 - s.window.blocks.length) ++ fieldBytes 1 (blocksIn .filling) ++
        fieldBytes 1 (blocksIn .full) ++ fieldBytes 1 (blocksIn .held) ++ fieldBytes 1 (blocksIn .released) ++
        fieldBytes 1
          ((if oldest.isSome = true then 1 else 0) + (if newest.isSome = true then 2 else 0) +
            (if head.isSome = true then 4 else 0)) ++
        fieldBytes 4 (oldest.getD 0) ++ fieldBytes 4 (newest.getD 0) ++ fieldBytes 4 (head.getD 0) ++
        fieldBytes 2 s.catalogue.entries.length ++ fieldBytes 2 ((s.catalogue.cursors.get p).target.getD 0) ++
        fieldBytes 1 (if (s.catalogue.cursors.get p).direction = .forward then 0 else 1) ++
        fieldBytes 1 (match s.tracker.point.lock with
          | .unlocked => 0
          | .locked => 1
          | .holdover => 2) ++
        Lane.all.flatMap (fun l =>
          (match workOf s l with
            | .none => fieldBytes 1 0 ++ fieldBytes 4 0
            | .live k _ => fieldBytes 1 1 ++ fieldBytes 4 k
            | .reRender k _ => fieldBytes 1 2 ++ fieldBytes 4 k) ++
          fieldBytes 1 (if l ∈ activeLanes s then (s.engines.get l).learn.remaining else 0))
    data.length = 49 ∧
      exec (.stat p (.whole () n)) s = .next (settle (s.frameEnded p .done (readReply s p data n)))

/-- A whole PROBE frame on a DESELECTED port, with any right and in any pass state, drives the status byte, then one
byte, then 0: UNKNOWN where the code names no request, else the result that the rights and pass-state stages give
the named request from this port now, with the lane argument. The result is DONE and nothing else changes. -/
def Obligations.ProbeReturnsTheCheckResult : Prop :=
  ∀ (s : State) (p : Port) (a : ProbeArgs) (n : Nat), s.portFree p →
    exec (.probe p (.whole a n)) s =
      .next (settle (s.frameEnded p .done
        (readReply s p
          [match Request.ofCode a.code with
            | none => 11#8
            | some r => (acceptance s p r a.lane).code] n)))

/-- A whole CWALK frame on a DESELECTED port, with any right and in any pass state. With the cursor at a present
entry that begins a run of K entries, each the next in the cursor's direction after the one before it: n nibbles, at
most those of the status byte and of the K items, drive the status byte and the items, each the 16 bytes of the
table of R194; the cursor stands at the first entry of the run whose sixteenth byte has not been driven whole, or,
where all have been, at the entry that follows the run, or END. Where none follows, more nibbles than that drive
zeros and the cursor stays at END. With the cursor at END the frame drives zeros and the cursor stays. The result is
DONE and nothing else changes. -/
def Obligations.CwalkStreamsTheEntryAndMoves : Prop :=
  (∀ (s : State) (p : Port) (n : Nat) (e : Entry) (rest : List Entry), s.portFree p →
      let cursor := s.catalogue.cursors.get p
      let after := fun (y : Entry) =>
        if cursor.direction = .forward then s.catalogue.entries.find? (fun x => entryBefore s y x)
        else (s.catalogue.entries.filter (fun x => entryBefore s x y)).getLast?
      let run := e :: rest
      cursor.target = some e.number → (∀ y ∈ run, entryNumbered s y.number = some y) →
      run.IsChain (fun y z => after y = some z) →
      let following := (run.getLast?.bind after).map (fun y => y.number)
      let ends := fun (x : Option Nat) =>
        exec (.cwalk p (.whole () n)) s =
          .next (settle
            ((s.setCursor p { cursor with target := x }).frameEnded p .done
              (readReply s p (run.flatMap entryItem) n)))
      (n < 2 + 32 * run.length → ends ((run[(n - 2) / 32]?).map (fun y => y.number))) ∧
        (n = 2 + 32 * run.length → ends following) ∧
        (2 + 32 * run.length < n → following = none → ends none)) ∧
    ∀ (s : State) (p : Port) (n : Nat), s.portFree p → (s.catalogue.cursors.get p).target = none →
      exec (.cwalk p (.whole () n)) s = .next (settle (s.frameEnded p .done (readReply s p [] n)))

/-- A whole CSEEK frame on a DESELECTED port, with any right and in any pass state: ARG where the mode is above 3 or
the direction above 1; else, in mode NUMBER with no present entry of the number, NOENT; else the port's cursor
becomes the first entry (FIRST), the last (LAST), the entry of the number (NUMBER) or the first entry whose start
has a pass offset not below that of the position (POSITION), or END where there is none, with the given direction,
and the result is DONE. Nothing else changes. -/
def Obligations.CseekSetsThePortsCursor : Prop :=
  ∀ (s : State) (p : Port) (a : CseekArgs) (n : Nat), s.portFree p →
    let refuses := fun (r : Result) =>
      exec (.cseek p (.whole a n)) s = .next (settle (s.frameEnded p r (statusReply s p n)))
    let seeks := fun (e : Option Entry) =>
      exec (.cseek p (.whole a n)) s =
        .next (settle
          ((s.setCursor p ⟨e.map (fun x => x.number), if a.direction = 0#8 then .forward else .backward⟩).frameEnded
            p .done (statusReply s p n)))
    if 3 < a.mode.toNat ∨ 1 < a.direction.toNat then refuses .arg
    else if a.mode = 0#8 then seeks s.catalogue.entries.head?
    else if a.mode = 1#8 then seeks s.catalogue.entries.getLast?
    else if a.mode = 2#8 then
      (match s.catalogue.entries.find? (fun e => e.number == a.number.toNat) with
        | some e => seeks (some e)
        | none => refuses .noent)
    else seeks (s.catalogue.entries.find? (fun e => decide (passOffset s a.position ≤ passOffset s e.start)))

/-- A transfer that arrives in RUNNING with fewer than 128 entries in the scan FIFO is stored as the newest entry
with its loss mark clear. One that arrives in RUNNING with the FIFO full is discarded: the loss mark of the newest
entry is set and LINK is raised. One that arrives in IDLE, CLOSING or ENDED is discarded and nothing is raised.
Nothing else changes but READY. -/
def Obligations.TransferArrivesByPassStateAndFullness : Prop :=
  ∀ (s : State) (g : Tag) (w : Word32),
    (s.pass.state = .running → s.scan.fifo.length < 128 →
      exec (.transfer g w) s =
        .next (settle (s.setScan { s.scan with fifo := s.scan.fifo ++ [⟨g, w, false⟩] }))) ∧
    (∀ (older : List FifoEntry) (newest : FifoEntry), s.pass.state = .running →
      s.scan.fifo = older ++ [newest] → 128 ≤ s.scan.fifo.length →
      exec (.transfer g w) s =
        .next (settle (raise .link
          (s.setScan { s.scan with fifo := older ++ [{ newest with loss := true }] })))) ∧
    (s.pass.state ≠ .running → exec (.transfer g w) s = .next (settle s))

/-- A HEAD entry without a loss mark, taken in NONE or DISCARD, is held as word A and the state becomes HEADER.
Taken in HEADER it is word B: where the lane mask of word A is not the pass lane set or its count not in 1..1024,
the held word is dropped with a link fault and the state becomes DISCARD; where both hold, a block is FILLING and
the reported position is the low 32 bits of the next position, the packet is OPEN with its context at the next
position, its count and words needed, no word received, no partial bit and no lane written. Where no block is
FILLING, a valid word B first secures the block that the counter numbers, in the lowest FREE slot, with a fresh
record; where no slot is FREE it stalls with WINFULL raised, itself the suspended entry and the header still held;
and where the counter has reached 2^28 it raises LINK and ends the input, everything in progress dropped. Nothing
else changes but READY. -/
def Obligations.HeadTakenHoldsChecksAndOpens : Prop :=
  ∀ (s : State) (e : FifoEntry) (rest : List FifoEntry), s.canTake e rest → e.tag = .head → e.loss = false →
    ((s.scan.packet = .none ∨ s.scan.packet = .discard) →
      exec .headTaken s =
        .next (settle (s.setScan
          { s.scan with
            fifo := rest, suspended := none, heldWord := some e.word, context := none, packet := .header }))) ∧
    ∀ a : Word32, s.scan.packet = .header → s.scan.heldWord = some a →
      let valid := a.toNat % 256 = s.pass.laneMask.toNat ∧ 1 ≤ a.toNat / 65536 ∧ a.toNat / 65536 ≤ 1024
      (¬valid →
        exec .headTaken s =
          .next (settle (linkFault (s.setScan
            { s.scan with fifo := rest, suspended := none, heldWord := none, packet := .discard })))) ∧
      let opens := fun (x : State) =>
        exec .headTaken s =
          .next (settle (x.setScan
            { s.scan with
              fifo := rest, suspended := none, heldWord := none, packet := .opened
              context := some
                { first := s.scan.next, count := a.toNat / 65536
                  wordsNeeded := (a.toNat / 65536 * (activeLanes s).length * s.pass.width.bits + 31) / 32
                  wordsReceived := 0, partialBits := [], lanesWritten := 0 } }))
      (valid → (fillingBlock s).isSome = true → e.word = s.scan.next.setWidth 32 → opens s) ∧
      (∀ slot, valid → fillingBlock s = none → s.window.counter < 2 ^ 28 → LowestFree s slot →
        e.word = s.scan.next.setWidth 32 → opens (s.slotTaken slot)) ∧
      (valid → fillingBlock s = none → s.window.counter < 2 ^ 28 → NoneFree s →
        exec .headTaken s =
          .next (settle (raise .winfull (s.setScan
            { s.scan with fifo := rest, stall := ⟨true, true⟩, suspended := some ⟨e, 0⟩ })))) ∧
      (valid → fillingBlock s = none → 2 ^ 28 ≤ s.window.counter →
        exec .headTaken s =
          .next (settle (raise .link (s.setScan
            { s.scan with
              fifo := rest, suspended := none, heldWord := none, context := none, pendingFill := 0, packet := .none
              inputEnded := true }))))

/-- Word B of a valid header that reports d positions ahead of the expected position; a block is FILLING, or none is
and the lowest FREE slot is secured first; no position written lies more than 2 x perf_max past the reference of a
LOCKED tracker. With room in the catalogue a GAP entry of span d at the next position is added, decided by DEFAULT,
REPAIR where d exceeds no active lane's maxspan and HOLD otherwise, CATHIGH being raised where the count has become
1920; with 2048 entries none is, UNLISTED is raised, and the unlisted count of every active lane's record of the
block rises by 1, stopping at 255. Void values are written on every active lane from the next position on and no
other cell changes; the next position and the fill counts rise with them, a block of 2048 positions is FULL, and the
GAP film flag of each block written is set. Where the block has room for all d, or is full before the last of them
and the lowest FREE slot is secured for the rest, all d are written, no fill is pending and the packet is OPEN at
the new next position. Where no slot is FREE for the rest, that rest is the pending fill, the header is still held,
word B is the suspended entry, and the assembler stalls with WINFULL raised. A block secured takes the tracker
events held. The pass, the tracker otherwise, engines and rights are as they were. -/
def Obligations.GapInsertsVoidPositions : Prop :=
  ∀ (s u : State) (e : FifoEntry) (rest : List FifoEntry) (a : Word32) (b : Block) (d : Nat),
    s.canTake e rest → e.tag = .head → e.loss = false → s.scan.packet = .header → s.scan.heldWord = some a →
    s.scan.context = none → headerValid s a = true → s.pass.runOutEnded = false → WindowLegal s → NextPositionLaw s →
    Memory.wf s.window.memory → BlockReady s u b → 1 ≤ d → d ≤ 2048 →
    e.word = s.scan.next.setWidth 32 + BitVec.ofNat 32 d →
    let room := s.catalogue.entries.length < 2048
    let m := min d (2048 - b.fill)
    let gap : Entry :=
      { number := 0, kind := .gap, lane := none, start := s.scan.next, span := some d, peak := none
        decision := some (if ∀ l ∈ activeLanes s, d ≤ (s.engines.get l).settings.maxspan then .repair else .hold)
        decidedBy := .default, reported := none, fixed := false }
    let blocks := u.window.blocks.map (fun c =>
      if c.number = b.number then
        { c.grown m with
          filmGap := true
          lanes :=
            if s.catalogue.entries.length < 2048 then c.lanes
            else c.lanes.mapIdx (fun _ r => r.map LaneRecord.oneUnlisted) }
      else c)
    let frame := fun (t : State) =>
      t.pass = s.pass ∧ t.engines = s.engines ∧ t.rights = s.rights ∧ t.pending = s.pending ∧ portsQuiet s t ∧
        t.window.finalBlock = s.window.finalBlock ∧ t.window.reviewHold = s.window.reviewHold ∧
        t.window.releaseMark = s.window.releaseMark
    let opened := fun (t : State) =>
      t.scan =
          { s.scan with
            fifo := rest, suspended := none, ready := t.scan.ready, packet := .opened, heldWord := none
            pendingFill := 0, next := s.scan.next + BitVec.ofNat 40 d
            context := some (packetAt s a (s.scan.next + BitVec.ofNat 40 d)) } ∧
        (room → EntryAdded s t gap) ∧ (¬room → EntryUnlisted s t)
    (b.fill + d ≤ 2048 → NoTimeout s d →
      ∃ t, exec .headTaken s = .next t ∧ opened t ∧ t.window.blocks = blocks ∧
        t.window.counter = u.window.counter ∧ t.tracker = u.tracker ∧ VoidsWritten s t b 0 d 0 ∧ frame t) ∧
    (∀ slot, 2048 < b.fill + d → u.window.counter < 2 ^ 28 → LowestFree u slot → NoTimeout s d →
      ∃ t, exec .headTaken s = .next t ∧ opened t ∧
        t.window.blocks = blocks ++ [{ (newBlock u slot).grown (d - m) with filmGap := true }] ∧
        t.window.counter = u.window.counter + 1 ∧
        t.tracker = { u.tracker with heldEvents := [], heldStart := none } ∧ VoidsWritten s t b slot d 0 ∧ frame t) ∧
    (2048 < b.fill + d → u.window.counter < 2 ^ 28 → NoneFree u → NoTimeout s m →
      ∃ t, exec .headTaken s = .next t ∧
        t.scan =
          { s.scan with
            fifo := rest, ready := t.scan.ready, pendingFill := d - m, next := s.scan.next + BitVec.ofNat 40 m
            stall := ⟨true, true⟩, suspended := some ⟨e, 0⟩ } ∧
        raisedEverywhere .winfull t ∧
        (room →
          t.catalogue.entries.Perm ({ gap with number := assignedNumber s } :: s.catalogue.entries) ∧
            t.catalogue.counter = nextNumber (assignedNumber s) ∧ t.catalogue.cursors = s.catalogue.cursors) ∧
        (¬room → t.catalogue = s.catalogue ∧ raisedEverywhere .unlisted t) ∧
        t.window.blocks = blocks ∧ t.window.counter = u.window.counter ∧ t.tracker = u.tracker ∧
        VoidsWritten s t b 0 m 0 ∧ frame t)

/-- Word B of a valid header whose distance from the expected position, read as a signed 32-bit number, is neither 0
nor in 1..2048; a block is FILLING, or none is and the lowest FREE slot is secured first, taking the tracker events
held. With room in the catalogue a SLIP entry at the next position is added with no span, peak or decision, holding
the expected and the reported low 32 bits, CATHIGH being raised where the count has become 1920; with 2048 entries
nothing is listed and no event is raised. Either way the SLIP film flag of the FILLING block is set; the tracker's
last mark is cleared and its slip position set to the next position, its other fields kept; the packet is OPEN at
the next position, which does not move; no sample is written. The pass, engines and rights are as they were. -/
def Obligations.SlipKeepsNumbering : Prop :=
  ∀ (s u : State) (e : FifoEntry) (rest : List FifoEntry) (a : Word32) (b : Block),
    s.canTake e rest → e.tag = .head → e.loss = false → s.scan.packet = .header → s.scan.heldWord = some a →
    headerValid s a = true → BlockReady s u b →
    let d := (e.word - s.scan.next.setWidth 32).toInt
    d ≠ 0 → ¬(1 ≤ d ∧ d ≤ 2048) →
    ∃ t, exec .headTaken s = .next t ∧
      (s.catalogue.entries.length < 2048 →
        EntryAdded s t
          { number := 0, kind := .slip, lane := none, start := s.scan.next, span := none, peak := none
            decision := none, decidedBy := .default, reported := some ⟨s.scan.next.setWidth 32, e.word⟩
            fixed := false }) ∧
      (2048 ≤ s.catalogue.entries.length →
        t.catalogue = s.catalogue ∧ ∀ p, (t.ports.get p).events = (s.ports.get p).events) ∧
      t.tracker = { u.tracker with lastMark := none, slipPosition := some s.scan.next } ∧
      t.window =
        { u.window with
          blocks := u.window.blocks.map (fun c => if c.state = .filling then { c with filmSlip := true } else c) } ∧
      t.scan =
        { s.scan with
          fifo := rest, suspended := none, ready := t.scan.ready, packet := .opened, heldWord := none
          context := some (packetAt s a s.scan.next) } ∧
      t.pass = s.pass ∧ t.engines = s.engines ∧ t.rights = s.rights ∧ t.pending = s.pending ∧ portsQuiet s t

/-- An entry without a loss mark is taken. DATA, MARK and END in NONE are discarded with a link fault (LINK raised,
the FILLING block's LINK flag set). In HEADER each breaks the header with a link fault: the held word is dropped and
the state becomes DISCARD, or NONE for END. In DISCARD, DATA and MARK are discarded, and END makes the state NONE,
without an event. DATA in DAMAGED is discarded without an event. DATA in OPEN after all the words needed is
discarded with a link fault. Nothing else changes but READY. An entry of any tag with a loss mark does first what it
does without one; where that leaves neither a stall nor the end of the input, the LINK film flag of the FILLING
block, if any, is then set, an OPEN packet becomes DAMAGED and a held header is dropped to DISCARD; where it leaves
a stall, the loss mark waits with the suspended entry; where it ends the input, nothing more happens (the model's
reading, log entry 16). Once the input has ended, an entry of any tag is discarded. -/
def Obligations.StrayEntriesAreDiscarded : Prop :=
  (∀ (s : State) (e : FifoEntry) (rest : List FifoEntry) (c : Instr),
      (e.tag, c) ∈ [(Tag.head, Instr.headTaken), (.data, .dataTaken), (.mark, .markTaken), (.close, .endTaken)] →
      s.scan.fifo = e :: rest → (s.pass.state = .running ∨ s.pass.state = .closing) → s.scan.stall.waiting = false →
      (s.scan.inputEnded = true → exec c s = .next (settle (s.setScan { s.scan with fifo := rest }))) ∧
      (s.scan.inputEnded = false → e.loss = true →
        ∃ t, exec c (s.setScan { s.scan with fifo := { e with loss := false } :: rest }) = .next t ∧
          (t.scan.inputEnded = true → exec c s = .next t) ∧
          (∀ x, t.scan.inputEnded = false → t.scan.stall.waiting = true → t.scan.suspended = some x →
            exec c s = .next (t.setScan { t.scan with suspended := some { x with entry := e } })) ∧
          (t.scan.inputEnded = false → t.scan.stall.waiting = false → exec c s = .next t.lossMarked))) ∧
  ∀ (s : State) (e : FifoEntry) (rest : List FifoEntry) (c : Instr), s.canTake e rest → e.loss = false →
    ((e.tag = .data ∧ c = .dataTaken) ∨ (e.tag = .mark ∧ c = .markTaken) ∨ (e.tag = .close ∧ c = .endTaken)) →
    (s.scan.packet = .none → exec c s = .next (settle (linkFault (s.entryGone rest)))) ∧
    (s.scan.packet = .header →
      exec c s =
        .next (settle (linkFault ((s.entryGone rest).setScan
          { (s.entryGone rest).scan with
            heldWord := none, packet := if e.tag = .close then .none else .discard })))) ∧
    (s.scan.packet = .discard →
      exec c s =
        .next (settle ((s.entryGone rest).setPacket (if e.tag = .close then .none else .discard)))) ∧
    (s.scan.packet = .damaged → e.tag = .data → exec c s = .next (settle (s.entryGone rest))) ∧
    ∀ x, s.scan.packet = .opened → e.tag = .data → s.scan.context = some x → x.wordsNeeded ≤ x.wordsReceived →
      exec c s = .next (settle (linkFault (s.entryGone rest)))

/-- A DATA entry taken in OPEN with words still needed, fewer partial bits than a sample has, a lane still to be
written and a position of the packet still to be assembled; a block is FILLING, or none is and the lowest FREE slot
is secured first; no position completed lies more than 2 x perf_max past the reference of a LOCKED tracker. The
partial bits and then the 32 bits of the word (bytes 3 2 1 0 in HIGH-FIRST, 0 1 2 3 in LOW-FIRST, each most
significant bit first) are cut into samples of the width, as many as they fill and the packet still lacks. Each is
written, its bits the high bits of the cell and the rest 0, on the next active lane in turn, the position rising
after the highest; no other cell changes. The bits left over are the new partial bits, or dropped as padding where
the packet is complete; the words received rise by 1, the next position and the fill counts by the positions
completed; a block becomes FULL with its last position. A sample that lies past the block's end goes into the lowest
FREE slot, secured for the next block. Where no slot is FREE for a sample, the first of the word or a later one, the
samples before it are written and the assembler stalls with WINFULL at the bit that would complete it, the word
counted as received (the model's reading, log entry 15). The pass, catalogue, engines, rights, ports, and the
tracker but for the events that a block secured takes over, are as they were. -/
def Obligations.DataWordBecomesTwoSamples : Prop :=
  ∀ (s : State) (e : FifoEntry) (rest : List FifoEntry) (x : PacketContext),
    s.canTake e rest → e.tag = .data → e.loss = false → s.scan.packet = .opened → s.scan.context = some x →
    x.wordsReceived < x.wordsNeeded → s.pass.runOutEnded = false → WindowLegal s → NextPositionLaw s →
    Memory.wf s.window.memory →
    let w := s.pass.width.bits
    let n := (activeLanes s).length
    let a := (s.scan.next - x.first).toNat
    let stream : List Bool := x.partialBits ++ wordBits s.pass.byteOrder e.word
    let lacking := n * (x.count - a) - x.lanesWritten
    let m := min (stream.length / w) lacking
    let done := (x.lanesWritten + m) / n
    x.partialBits.length < w → x.lanesWritten < n → a < x.count →
    let frame := fun (t : State) =>
      t.pass = s.pass ∧ t.catalogue = s.catalogue ∧ t.engines = s.engines ∧ t.rights = s.rights ∧
        t.pending = s.pending ∧ portsQuiet s t
    let quiet := fun (t : State) => ∀ p, (t.ports.get p).events = (s.ports.get p).events
    let unpacked := fun (t : State) =>
      t.scan =
        { s.scan with
          fifo := rest, suspended := none, ready := t.scan.ready, next := s.scan.next + BitVec.ofNat 40 done
          context := some
            { x with
              wordsReceived := x.wordsReceived + 1, lanesWritten := (x.lanesWritten + m) % n
              partialBits := if m = lacking then [] else stream.drop (m * w) } }
    let blocks := fun (u : State) (b : Block) (k : Nat) =>
      u.window.blocks.map (fun c => if c.number = b.number then c.grown k else c)
    (∀ (u : State) (b : Block), BlockReady s u b →
      let last := b.fill + (x.lanesWritten + m - 1) / n
      (last < 2048 → NoTimeout s done →
        ∃ t, exec .dataTaken s = .next t ∧ unpacked t ∧ SamplesWritten s t b 0 m x.lanesWritten w stream ∧
          t.window = { u.window with memory := t.window.memory, blocks := blocks u b done } ∧
          t.tracker = u.tracker ∧ frame t ∧ quiet t) ∧
      (∀ slot, 2048 ≤ last → u.window.counter < 2 ^ 28 → LowestFree u slot → NoTimeout s done →
        ∃ t, exec .dataTaken s = .next t ∧ unpacked t ∧ SamplesWritten s t b slot m x.lanesWritten w stream ∧
          t.window =
            { u.window with
              memory := t.window.memory, counter := u.window.counter + 1
              blocks :=
                blocks u b (2048 - b.fill) ++ [(newBlock u slot).grown (done - (2048 - b.fill))] } ∧
          t.tracker = { u.tracker with heldEvents := [], heldStart := none } ∧ frame t ∧ quiet t) ∧
      (2048 ≤ last → u.window.counter < 2 ^ 28 → NoneFree u → NoTimeout s (2048 - b.fill) →
        let fit := n * (2048 - b.fill) - x.lanesWritten
        ∃ t, exec .dataTaken s = .next t ∧ SamplesWritten s t b 0 fit x.lanesWritten w stream ∧
          t.scan =
            { s.scan with
              fifo := rest, ready := t.scan.ready, next := s.scan.next + BitVec.ofNat 40 (2048 - b.fill)
              stall := ⟨true, true⟩, suspended := some ⟨e, (fit + 1) * w - 1 - x.partialBits.length⟩
              context := some
                { x with
                  wordsReceived := x.wordsReceived + 1, lanesWritten := 0
                  partialBits := (stream.drop (fit * w)).take (w - 1) } } ∧
          t.window =
            { u.window with memory := t.window.memory, blocks := blocks u b (2048 - b.fill) } ∧
          t.tracker = u.tracker ∧ raisedEverywhere .winfull t ∧ frame t)) ∧
    (fillingBlock s = none → s.window.counter < 2 ^ 28 → NoneFree s →
      exec .dataTaken s =
        .next (settle (raise .winfull (s.setScan
          { s.scan with
            fifo := rest, stall := ⟨true, true⟩, suspended := some ⟨e, w - 1 - x.partialBits.length⟩
            context := some
              { x with wordsReceived := x.wordsReceived + 1, partialBits := stream.take (w - 1) } }))))

/-- A MARK entry without a loss mark, taken in OPEN or DAMAGED with its offset within the count, hands the tracker a
mark at first position + offset. With no last mark it becomes the last mark and the slip position is cleared. Else
the signed interval from the last mark is classed: below perf_min the reject run rises, stopping at 3, and nothing
else of the tracker changes; above perf_max the last mark moves, the history and valid run are cleared and the
reject run rises, in both cases where that does not bring a LOCKED tracker's reject run to 3; in between, with a
valid run below 7, the last mark moves, the reject run is cleared, the interval joins the history and the valid run
rises. Nothing else of the part changes but READY. An offset above the count is ignored with a link fault. -/
def Obligations.MarksAreClassedByInterval : Prop :=
  ∀ (s : State) (e : FifoEntry) (rest : List FifoEntry) (x : PacketContext), s.canTake e rest → e.tag = .mark →
    e.loss = false → (s.scan.packet = .opened ∨ s.scan.packet = .damaged) → s.scan.context = some x →
    let p := x.first + e.word.setWidth 40
    let u := s.tracker
    let becomes := fun (v : Tracker) => exec .markTaken s = .next (settle ((s.entryGone rest).setTracker v))
    (x.count < e.word.toNat → exec .markTaken s = .next (settle (linkFault (s.entryGone rest)))) ∧
    (e.word.toNat ≤ x.count → u.lastMark = none → becomes { u with lastMark := some p, slipPosition := none }) ∧
    ∀ l : Position, e.word.toNat ≤ x.count → u.lastMark = some l →
      let i := (p - l).toInt
      (i < s.pass.perfMin → ¬(u.point.lock = .locked ∧ u.rejectRun = 2) →
        becomes { u with rejectRun := min 3 (u.rejectRun + 1) }) ∧
      ((s.pass.perfMin : Int) ≤ i → (s.pass.perfMax : Int) < i → ¬(u.point.lock = .locked ∧ u.rejectRun = 2) →
        becomes
          { u with
            lastMark := some p, history := [], validRun := 0, rejectRun := min 3 (u.rejectRun + 1) }) ∧
      ((s.pass.perfMin : Int) ≤ i → i ≤ s.pass.perfMax → u.validRun < 7 →
        becomes
          { u with
            lastMark := some p, rejectRun := 0, validRun := u.validRun + 1
            history := (if u.history.length < 8 then u.history else u.history.drop 1) ++ [i.toNat] })

/-- A MARK entry without a loss mark, taken in OPEN or DAMAGED with its offset within the count, a last mark being
present, from a window in its legal form. An accepted interval with a valid run of 7 or 8: S8 becomes the sum of the
history with the new interval, the valid run 8, the reject run 0 and the last mark moves; a lock state other than
LOCKED becomes LOCKED, a LOCK event is published at the mark and HUMLOCK is raised; a LOCKED one stays, an ACCEPT
event is published at the mark and no event is raised. A reject of a LOCKED tracker whose reject run is 2 (an
interval below perf_min, or above perf_max, which moves the last mark): the lock state becomes HOLDOVER with S8
kept, the history is cleared, the valid run 0, the reject run 3, HUMLOSS is raised, and a HOLDOVER event is
published at the mark, or at the last mark where the mark lies before it. A published event stands in its block, or
is held for a block not yet secured, as R30 to R32 say; that positions, the start of a block yet to be secured among
them, are compared as signed 40-bit distances and that an eighteenth held event replaces the last are the model's
readings (log entries 11, 27 and 12). Pass, memory, catalogue, engines and rights are as they were. -/
def Obligations.LockAndHoldoverFollowTheRuns : Prop :=
  ∀ (s : State) (e : FifoEntry) (rest : List FifoEntry) (x : PacketContext) (l : Position), s.canTake e rest →
    e.tag = .mark → e.loss = false → (s.scan.packet = .opened ∨ s.scan.packet = .damaged) →
    s.scan.context = some x → e.word.toNat ≤ x.count → s.tracker.lastMark = some l → WindowLegal s →
    let p := x.first + e.word.setWidth 40
    let i := (p - l).toInt
    let h := (if s.tracker.history.length < 8 then s.tracker.history else s.tracker.history.drop 1) ++ [i.toNat]
    let frame := fun (t : State) =>
      t.pass = s.pass ∧ t.window.memory = s.window.memory ∧ t.catalogue = s.catalogue ∧ t.engines = s.engines ∧
        t.rights = s.rights ∧ t.pending = s.pending ∧ t.scan = { s.scan with fifo := rest, suspended := none, ready := t.scan.ready } ∧
        t.tracker.slipPosition = s.tracker.slipPosition ∧ portsQuiet s t
    ((s.pass.perfMin : Int) ≤ i → i ≤ s.pass.perfMax → 7 ≤ s.tracker.validRun →
      ∃ t, exec .markTaken s = .next t ∧ t.tracker.point = ⟨.locked, some h.sum⟩ ∧ t.tracker.history = h ∧
        t.tracker.validRun = 8 ∧ t.tracker.rejectRun = 0 ∧ t.tracker.lastMark = some p ∧
        (s.tracker.point.lock ≠ .locked → EventPublished s t p (.lock h.sum) ∧ raisedEverywhere .humlock t) ∧
        (s.tracker.point.lock = .locked → EventPublished s t p (.accept h.sum) ∧
          ∀ q, (t.ports.get q).events = (s.ports.get q).events) ∧
        frame t) ∧
    ((i < s.pass.perfMin ∨ ((s.pass.perfMin : Int) ≤ i ∧ (s.pass.perfMax : Int) < i)) →
      s.tracker.point.lock = .locked → s.tracker.rejectRun = 2 →
      ∃ t, exec .markTaken s = .next t ∧ t.tracker.point = ⟨.holdover, s.tracker.point.s8⟩ ∧ t.tracker.history = [] ∧
        t.tracker.validRun = 0 ∧ t.tracker.rejectRun = 3 ∧
        t.tracker.lastMark = some (if i < s.pass.perfMin then l else p) ∧
        EventPublished s t (if i < s.pass.perfMin ∧ i < 0 then l else p) .holdover ∧
        raisedEverywhere .humloss t ∧ frame t)

/-- An END or HEAD entry without a loss mark, taken in OPEN or DAMAGED. With every position of the packet assembled:
no position is written; the packet state becomes NONE after an END and HEADER after a HEAD, whose word is then held
as word A, the packet context is dropped and no fill is pending; LINK is raised by a HEAD in OPEN alone (log entry
17 names that case); nothing else changes but READY. With d positions missing, a block FILLING or the lowest FREE
slot secured first, and no position written more than 2 x perf_max past the reference of a LOCKED tracker: the void
value is written on the lanes not yet written of the first of them and on every active lane of the others, and no
other cell changes; the next position and the fill counts rise with them, a block of 2048 positions is FULL, and the
LINK film flag of each block written is set; LINK is raised where the packet was OPEN, and no event where it was
DAMAGED. Where the block has room for all d, or the lowest FREE slot is secured for those past its end, the packet
ends as before. Where no slot is FREE, for the first or for those past the block's end, what is left is the pending
fill, the packet stays, the entry is suspended and the assembler stalls with WINFULL raised, LINK being raised
before (the model's choice, log entry 26). The pass, catalogue, engines and rights, and the tracker but for the
events that a block secured takes over, are as they were. -/
def Obligations.EndClosesACompletePacket : Prop :=
  ∀ (s : State) (e : FifoEntry) (rest : List FifoEntry) (x : PacketContext) (c : Instr), s.canTake e rest →
    ((e.tag = .close ∧ c = .endTaken) ∨ (e.tag = .head ∧ c = .headTaken)) → e.loss = false →
    (s.scan.packet = .opened ∨ s.scan.packet = .damaged) → s.scan.context = some x →
    let d := x.count - (s.scan.next - x.first).toNat
    let ended : ScanInput :=
      { s.scan with
        fifo := rest, suspended := none, context := none, pendingFill := 0
        packet := if e.tag = .head then .header else .none
        heldWord := if e.tag = .head then some e.word else s.scan.heldWord }
    let stalled : ScanInput := { s.scan with fifo := rest, stall := ⟨true, true⟩, suspended := some ⟨e, 0⟩ }
    let link : EventSet := if s.scan.packet = .opened then Event.link.flag else 0#11
    let frame := fun (t : State) (others : EventSet) =>
      (∀ p, (t.ports.get p).events = (s.ports.get p).events ||| link ||| others) ∧ t.pass = s.pass ∧
        t.catalogue = s.catalogue ∧ t.engines = s.engines ∧ t.rights = s.rights ∧ t.pending = s.pending ∧ portsQuiet s t
    (d = 0 →
      exec c s =
        .next (settle
          (if e.tag = .head ∧ s.scan.packet = .opened then raise .link (s.setScan ended) else s.setScan ended))) ∧
    (1 ≤ d → fillingBlock s = none → s.window.counter < 2 ^ 28 → NoneFree s →
      ∃ t, exec c s = .next t ∧ frame t Event.winfull.flag ∧ t.window = s.window ∧ t.tracker = s.tracker ∧
        t.scan = { stalled with pendingFill := d, ready := t.scan.ready }) ∧
    ∀ (u : State) (b : Block), 1 ≤ d → d ≤ 2048 → s.pass.runOutEnded = false → WindowLegal s → NextPositionLaw s →
      Memory.wf s.window.memory → BlockReady s u b →
      let m := min d (2048 - b.fill)
      let blocks := u.window.blocks.map (fun y =>
        if y.number = b.number then { y.grown m with filmLink := true } else y)
      (b.fill + d ≤ 2048 → NoTimeout s d →
        ∃ t, exec c s = .next t ∧ t.scan = { ended with next := s.scan.next + BitVec.ofNat 40 d, ready := t.scan.ready } ∧
          t.window = { u.window with memory := t.window.memory, blocks := blocks } ∧ t.tracker = u.tracker ∧
          VoidsWritten s t b 0 d x.lanesWritten ∧ frame t 0#11) ∧
      (∀ slot, 2048 < b.fill + d → u.window.counter < 2 ^ 28 → LowestFree u slot → NoTimeout s d →
        ∃ t, exec c s = .next t ∧ t.scan = { ended with next := s.scan.next + BitVec.ofNat 40 d, ready := t.scan.ready } ∧
          t.window =
            { u.window with
              memory := t.window.memory, counter := u.window.counter + 1
              blocks := blocks ++ [{ (newBlock u slot).grown (d - m) with filmLink := true }] } ∧
          t.tracker = { u.tracker with heldEvents := [], heldStart := none } ∧
          VoidsWritten s t b slot d x.lanesWritten ∧ frame t 0#11) ∧
      (2048 < b.fill + d → u.window.counter < 2 ^ 28 → NoneFree u → NoTimeout s m →
        ∃ t, exec c s = .next t ∧
          t.scan =
            { stalled with
              pendingFill := d - m, next := s.scan.next + BitVec.ofNat 40 m, ready := t.scan.ready
              context := some { x with lanesWritten := 0 } } ∧
          t.window = { u.window with memory := t.window.memory, blocks := blocks } ∧ t.tracker = u.tracker ∧
          VoidsWritten s t b 0 m x.lanesWritten ∧ frame t Event.winfull.flag)

/-- In CLOSING, the run-out not yet ended, with an empty FIFO and no stall, from a window in its legal form: run-out
ended is set, the packet state NONE, the held header and packet context dropped, the tracker's held events empty;
LINK is raised where a packet was open or a header held. A FILLING block with positions becomes FULL with its fill
count, keeping the tracker events below it, its LINK film flag set where a packet was open, and the catalogue is as
it was; one without is freed with every entry that starts in it, the cursors on those moving to the first of the
entries after them that stays, or END. Every other block and entry, and the window's counter, hold and mark, are as
they were. Where a block is left, the final block is the newest one's number and the pass is ENDED if every block is
RELEASED, else CLOSING; where none is left the pass is IDLE, the final block absent and PASSEND is raised. The
memory, engines and rights are as they were. -/
def Obligations.RunOutEndSetsTheFinalBlock : Prop :=
  ∀ s : State, WindowLegal s → s.pass.state = .closing → s.pass.runOutEnded = false → s.scan.fifo = [] →
    s.scan.stall.waiting = false →
    ∃ t, exec .runOutEnd s = .next t ∧
      t.pass.runOutEnded = true ∧ t.scan.packet = .none ∧ t.scan.heldWord = none ∧ t.scan.context = none ∧
      t.tracker = { s.tracker with heldEvents := [], heldStart := none } ∧
      (s.scan.packet = .opened ∨ s.scan.packet = .damaged ∨ s.scan.packet = .header → raisedEverywhere .link t) ∧
      t.scan =
        { s.scan with packet := .none, heldWord := none, context := none, ready := t.scan.ready } ∧
      (∀ b ∈ t.window.blocks, b.state ≠ .filling) ∧
      (∀ b ∈ s.window.blocks, b.state = .filling → b.fill = 0 →
        t.window.blocks = s.window.blocks.filter (fun c => c.number ≠ b.number) ∧ EntriesRemoved s t b.number) ∧
      (∀ b ∈ s.window.blocks, b.state = .filling → b.fill ≠ 0 →
        t.catalogue = s.catalogue ∧
          t.window.blocks = s.window.blocks.map (fun c =>
            if c.number = b.number then
              { c with
                state := .full, events := c.events.filter (fun v => decide (v.offset < b.fill))
                filmLink := c.filmLink || decide (s.scan.packet = .opened ∨ s.scan.packet = .damaged) }
            else c)) ∧
      ((∀ b ∈ s.window.blocks, b.state ≠ .filling) →
        t.window.blocks = s.window.blocks ∧ t.catalogue = s.catalogue) ∧
      t.window.counter = s.window.counter ∧ t.window.reviewHold = s.window.reviewHold ∧
      t.window.releaseMark = s.window.releaseMark ∧
      (t.window.blocks ≠ [] → t.window.finalBlock = t.window.blocks.getLast?.map (fun b => b.number) ∧
        t.pass.state = if (∀ b ∈ t.window.blocks, b.state = .released) then .ended else .closing) ∧
      (t.window.blocks = [] → t.window.finalBlock = none ∧ t.pass.state = .idle ∧ raisedEverywhere .passend t) ∧
      t.window.memory = s.window.memory ∧ t.engines = s.engines ∧ t.rights = s.rights ∧ t.pending = s.pending ∧
      portsQuiet s t

/-- A report of a written position q of a FILLING or FULL block, the run-out and the input not having ended. With
the lock state LOCKED and a reference (the last mark position, else the slip position) from which q lies, as a
signed 40-bit number, more than 2 x perf_max ahead: the lock state becomes HOLDOVER with S8 kept, the history is
cleared and the valid run 0, the last mark and slip positions are kept, HUMLOSS is raised, and where no event was
published past q a HOLDOVER event at q is the newest event of the block that holds q. With no reference, in another
lock state, or at a distance of 2 x perf_max or less, nothing changes. Once the run-out or the input has ended no
report reaches the tracker, and nothing changes. That the command is one more report of a position already written
is the model's choice (log entry 8), and that 'past q' is read as a signed 40-bit distance is the model's reading
(log entry 11). -/
def Obligations.TimeoutEntersHoldover : Prop :=
  (∀ (s : State) (q : Position), (s.pass.runOutEnded = true ∨ s.scan.inputEnded = true) →
      exec (.trackerTimeout q) s = .next (settle s)) ∧
  ∀ (s : State) (q : Position) (b : Block), blockHolding s q = some b → offsetIn b q < b.fill →
    (b.state = .filling ∨ b.state = .full) → s.pass.runOutEnded = false → s.scan.inputEnded = false →
    let reference := s.tracker.lastMark.or s.tracker.slipPosition
    ((∀ r ∈ reference, ¬(s.tracker.point.lock = .locked ∧ 2 * (s.pass.perfMax : Int) < (q - r).toInt)) →
      exec (.trackerTimeout q) s = .next (settle s)) ∧
    ∀ r, reference = some r → s.tracker.point.lock = .locked → 2 * (s.pass.perfMax : Int) < (q - r).toInt →
      ∃ t, exec (.trackerTimeout q) s = .next t ∧
        t.tracker.point = ⟨.holdover, s.tracker.point.s8⟩ ∧ t.tracker.history = [] ∧ t.tracker.validRun = 0 ∧
        t.tracker.lastMark = s.tracker.lastMark ∧ t.tracker.slipPosition = s.tracker.slipPosition ∧
        t.tracker.rejectRun = s.tracker.rejectRun ∧ raisedEverywhere .humloss t ∧
        ((∀ p ∈ s.tracker.lastPublished, 0 ≤ (q - p).toInt) → t.tracker.lastPublished = some q ∧
          ∃ c ∈ t.window.blocks, c.number = b.number ∧ c.events.getLast? = some ⟨offsetIn b q, .holdover⟩) ∧
        t.pass = s.pass ∧ t.scan = { s.scan with ready := readyOf s } ∧ t.window.memory = s.window.memory ∧
        t.catalogue = s.catalogue ∧ t.engines = s.engines ∧ t.rights = s.rights ∧ t.pending = s.pending ∧
        portsQuiet s t

/-- A lane engine with no current work and no STALE block of its lane takes the lowest PENDING block for a live
render where that block is FULL, its predecessor is not in the window or DONE for the lane, and its successor is in
the window past FILLING or the block is the final block: the lane record becomes WORKING with dirty clear and
receives the learn flag while the lane's learn is ACTIVE, whose counted block it then is, and the work begins with
the lane's stored settings. Where the engine has work, a block of the lane is STALE, none is PENDING, or the lowest
PENDING one is not FULL, has its predecessor in the window and not DONE, or has no successor past FILLING and is not
the final block, it takes nothing live and nothing changes (where a block is STALE by the model's reading of R40,
log entry 10). An engine with no current work takes the lowest STALE block for a re-render in the same way, without
the learn; with work, or with no STALE block, nothing changes. -/
def Obligations.EnginesTakeTheBlockTheyMay : Prop :=
  ∀ (s : State) (l : Lane),
    (∀ b : Block, workOf s l = .none → (∀ c ∈ s.window.blocks, c.renderOf l ≠ some .stale) →
      s.window.blocks.find? (fun c => c.renderOf l == some .pending) = some b → b.state = .full →
      (∀ c ∈ s.window.blocks, c.number + 1 = b.number → c.renderOf l = some .done) →
      ((∃ c ∈ s.window.blocks, c.number = b.number + 1 ∧ c.state ≠ .filling) ∨ s.window.finalBlock = some b.number) →
      let x := s.engines.get l
      exec (.liveRenderTake l) s =
        .next (settle
          { s with
            window :=
              { s.window with
                blocks := s.window.blocks.map (fun c =>
                  if c.number = b.number then
                    c.mapRecord l (fun r =>
                      { r with
                        render := .working, dirty := false
                        learnFlag := r.learnFlag || decide (x.learn.state = .active) })
                  else c) }
            engines := s.engines.set l
              { x with
                work := .live b.number
                  { settings := x.settings, stage := .detect, anchors := [], hum := none, hiss := none }
                learn :=
                  if x.learn.state = .active then { x.learn with counted := some b.number } else x.learn } })) ∧
      ((workOf s l ≠ .none ∨ (∃ c ∈ s.window.blocks, c.renderOf l = some .stale) ∨
          (∀ c ∈ s.window.blocks, c.renderOf l ≠ some .pending) ∨
          ∃ b, s.window.blocks.find? (fun c => c.renderOf l == some .pending) = some b ∧
            (b.state ≠ .full ∨ (∃ c ∈ s.window.blocks, c.number + 1 = b.number ∧ c.renderOf l ≠ some .done) ∨
              ((∀ c ∈ s.window.blocks, c.number = b.number + 1 → c.state = .filling) ∧
                s.window.finalBlock ≠ some b.number))) →
        exec (.liveRenderTake l) s = .next (settle s)) ∧
      (∀ b : Block, workOf s l = .none → s.window.blocks.find? (fun c => c.renderOf l == some .stale) = some b →
        exec (.reRenderTake l) s =
          .next (settle
            { s with
              window :=
                { s.window with
                  blocks := s.window.blocks.map (fun c =>
                    if c.number = b.number then
                      c.mapRecord l (fun r => { r with render := .working, dirty := false })
                    else c) }
              engines := s.engines.set l
                { s.engines.get l with
                  work := .reRender b.number
                    { settings := (s.engines.get l).settings, stage := .mend 0, anchors := [], hum := none
                      hiss := none } } })) ∧
      ((workOf s l ≠ .none ∨ ∀ c ∈ s.window.blocks, c.renderOf l ≠ some .stale) →
        exec (.reRenderTake l) s = .next (settle s))

/-- Detection is under way on a block (one examination is part 1 of a completion command, the model's elementary
step, log entry 9). The residual at q is x[q] - 2 x[q-1] + x[q-2], computable where all three lie in the pass and
the window, are not void, and lie in no GAP, SPLICE or lane's VOID span; T is the larger of Tmin and floor(envelope
x ratio / 16). In IDLE past the block's last position the mend stage begins; else q is consumed: a void value in no
GAP span starts a void run, a residual above T a click of that peak, one not above T moves the envelope by
floor((|r| - a) / 64), and none leaves it. In CLICK a residual above T at q <= n + 256 extends the click, one not
above T raises the guard count below the guard. A click closes through max(n, m - 2) where the guard completes, q
being consumed, or where the residual is not computable; at 255 positions with the envelope |r| where it exceeds T
past n + 256; at the last position of the pass, 255 at most, where q lies past it. A GAP, SPLICE or lane's VOID span
it meets cuts it before its start, or drops it where it covers n. CLICK_LISTING, and part 1 alike, then list it,
decided by DEFAULT: REPAIR where its length is at most maxspan, else the long policy taken, CATHIGH being raised
where the count has become 1920; with 2048 entries it joins the unlisted carry, the unlisted count rises to 255 at
most, and UNLISTED is raised. The detector is IDLE; nothing else changes. -/
def Obligations.ClickListingClosesTheClick : Prop :=
  (∀ (s : State) (q : Position), WindowLegal s → (∀ j ∈ s.window.finalBlock, ∃ c ∈ s.window.blocks, c.number = j) →
      (inPass s q = true ↔
        0 ≤ passOffset s q ∧ ∀ j c, s.window.finalBlock = some j → blockNumbered s j = some c →
          passOffset s q < passOffset s c.first + c.fill) ∧
        (pastEnd s q = true ↔ s.window.finalBlock ≠ none ∧ inPass s q = false)) ∧
  ∀ (s : State) (l : Lane) (k : Nat) (f : Flight) (b : Block),
    workOf s l = .live k f → f.stage = .detect → blockNumbered s k = some b →
    let d := (s.engines.get l).detector
    let q := d.next
    let a := d.envelope
    let T := thresholdNow s l f.settings
    let examine : Instr := .liveRenderComplete l (.part 1)
    let steps := fun (x : Detecting) (next : Position) (envelope : Nat) =>
      exec examine s = .next (settle (s.detecting l x next envelope))
    (d.state = .idle → (b.fill : Int) ≤ (q - b.first).toInt →
      exec examine s = .next (settle (s.setWork l (.live k { f with stage := .mend 0 })))) ∧
    (d.state = .idle → (q - b.first).toInt < b.fill →
      (FreeVoid s l q → steps (.void q 1) (q + 1#40) a) ∧
        (¬FreeVoid s l q → (∀ r, ¬ResidualIs s l q r) → steps .idle (q + 1#40) a) ∧
        ∀ r, ResidualIs s l q r →
          (T < r.natAbs → steps (.click q q r.natAbs 0) (q + 1#40) a) ∧
            (r.natAbs ≤ T → steps .idle (q + 1#40) ((a : Int) + ((r.natAbs : Int) - a) / 64).toNat)) ∧
    ∀ (n m : Position) (peak g : Nat), d.state = .click n m peak g →
      (∀ r, pastEnd s q = false → ResidualIs s l q r →
        (T < r.natAbs → (q - n).toInt ≤ 256 → steps (.click n q (max peak r.natAbs) 0) (q + 1#40) a) ∧
          (r.natAbs ≤ T → g + 1 < f.settings.guardLen → steps (.click n m peak (g + 1)) (q + 1#40) a)) ∧
      ∀ (span : Nat) (next : Position) (envelope : Nat) (left : Option Nat),
        ClickCloses s l f.settings n m g span next envelope → ClashLeaves s l n span left →
        exec examine s = exec (.clickListing l) s ∧
          (left = none → exec (.clickListing l) s = .next (settle (s.detecting l .idle next envelope))) ∧
          ∀ c : Nat, left = some c →
            let decision : Decision :=
              if c ≤ f.settings.maxspan then .repair else if f.settings.longPolicy = 0 then .pass else .hold
            ∃ t, exec (.clickListing l) s = .next t ∧
              SpanPresented s t l
                { number := 0, kind := .click, lane := some l, start := n, span := some c, peak := some peak
                  decision := some decision, decidedBy := .default, reported := none, fixed := false }
                ⟨.click, n, c, decision⟩ next envelope ∧
              t.tracker = s.tracker ∧ t.pass = s.pass ∧ t.rights = s.rights ∧ t.pending = s.pending ∧
              t.scan = { s.scan with ready := readyOf s } ∧ portsQuiet s t

/-- Detection is under way on a block with a void run of some length forming (one examination is part 1 of a
completion command, the model's elementary step, log entry 9). The next position lies in the pass and is void and in
no GAP span: it joins the run and is consumed, and a run of 2048 then ends. Where it is not void or lies in a GAP
span, or lies past the end of the pass, the run ends before it with its length as it stands. VOID_LISTING, and part
1 alike, then present the run that ends. It is decided by DEFAULT: REPAIR where its length is at most the maxspan
taken with the block, else HOLD. With room in the catalogue a VOID entry of the lane with the run's start, length
and decision is added, CATHIGH being raised where the count has become 1920. With 2048 entries none is: the run
joins the lane's unlisted carry with its decision, the unlisted count of the lane's record of the block that holds
its start rises by 1, stopping at 255, and UNLISTED is raised. The detector is IDLE with the same envelope. The
other blocks, memory, tracker, pass, rights and Scan Input but READY are as they were. -/
def Obligations.VoidListingEndsTheRun : Prop :=
  ∀ (s : State) (l : Lane) (k : Nat) (f : Flight) (b : Block) (start : Position) (length : Nat),
    workOf s l = .live k f → f.stage = .detect → blockNumbered s k = some b →
    (s.engines.get l).detector.state = .void start length →
    let d := (s.engines.get l).detector
    let q := d.next
    let examine : Instr := .liveRenderComplete l (.part 1)
    (pastEnd s q = false → FreeVoid s l q → length + 1 < 2048 →
      exec examine s = .next (settle (s.detecting l (.void start (length + 1)) (q + 1#40) d.envelope))) ∧
    ∀ (span : Nat) (next : Position), VoidCloses s l length span next →
      let decision : Decision := if span ≤ f.settings.maxspan then .repair else .hold
      exec examine s = exec (.voidListing l) s ∧
        ∃ t, exec (.voidListing l) s = .next t ∧
          SpanPresented s t l
            { number := 0, kind := .void, lane := some l, start := start, span := some span, peak := none
              decision := some decision, decidedBy := .default, reported := none, fixed := false }
            ⟨.void, start, span, decision⟩ next d.envelope ∧
          t.tracker = s.tracker ∧ t.pass = s.pass ∧ t.rights = s.rights ∧ t.pending = s.pending ∧
          t.scan = { s.scan with ready := readyOf s } ∧ portsQuiet s t

/-- A live render whose positions are all done completes, from a window in its legal form: the engine's current work
becomes none; the lane record becomes DONE, or STALE with dirty cleared where dirty was set, with the peaks written:
the largest magnitude of the original values that are not void, absent where all are, and of the restored values;
the snapshot of the next block's record, if the block is in the window, is the render's hum and hiss state; where
the block was FULL and no lane of it is then PENDING or in a live render, it becomes HELD and HELD is raised, and
where another lane is, it stays FULL. Where the block became HELD or the record DONE the release rule is evaluated
on what was written: window, catalogue, pass and its events are those that the rule leaves. A learn that counts the
block counts it no longer and its remaining falls by 1; where that leaves none, the learn is IDLE, and where it has
counted a position the lane's P15 becomes min(8388607, sum / count) and LEARNED is raised; a learn that does not
count the block, and the settings otherwise, are kept, as is the detector. No other event is raised. Memory,
tracker, rights, cursors and the other lanes' engines are as they were, and no entry changes but for being fixed. -/
def Obligations.LiveCompletionWritesItsResults : Prop :=
  ∀ (s : State) (l : Lane) (k : Nat) (f : Flight) (b : Block) (r : LaneRecord) (h : HumState) (x : HissState) (held : Bool),
    WindowLegal s → workOf s l = .live k f → f.stage = .finished → f.hum = some h → f.hiss = some x →
    blockNumbered s k = some b → b.lanes.get l = some r →
    (held = true ↔
      b.state = .full ∧
        ∀ y, y ≠ l →
          b.renderOf y ≠ some .pending ∧ (b.renderOf y = some .working → ∀ g, workOf s y ≠ .live k g)) →
    let record : LaneRecord :=
      { r with
        render := if r.dirty = true then .stale else .done
        dirty := false, inputPeak := inputPeakOf s b l, outputPeak := outputPeakOf s b l }
    let snapshot : Snapshot := { phaseA := h.phaseA, phaseB := h.phaseB, slots := h.slots, lp := x.lp, env := x.env }
    let written : State := { s with window := completedWindow s l k record snapshot held }
    let after := if held = true ∨ r.dirty = false then releaseRule written else written
    InputPeakIs s b l (inputPeakOf s b l) ∧ OutputPeakIs s b l (outputPeakOf s b l) ∧
    ∃ t, exec (.liveRenderComplete l .rest) s = .next t ∧ workOf t l = .none ∧
      t.window = after.window ∧ t.catalogue = after.catalogue ∧ t.pass = after.pass ∧
      (∃ c ∈ t.window.blocks, c.number = k ∧ c.lanes.get l = some record ∧
        (held = true → (c.state = .held ∨ c.state = .released) ∧ raisedEverywhere .held t) ∧
        (b.state = .full → held = false → c.state = .full)) ∧
      (∀ c ∈ s.window.blocks, ∀ y, c.number = k + 1 → c.lanes.get l = some y →
        ∃ d ∈ t.window.blocks, d.number = k + 1 ∧ d.lanes.get l = some { y with snapshot := snapshot }) ∧
      t.window.memory = s.window.memory ∧ t.window.counter = s.window.counter ∧ t.tracker = s.tracker ∧
      t.rights = s.rights ∧ t.pending = s.pending ∧ t.scan = { s.scan with ready := t.scan.ready } ∧
      t.catalogue.cursors = s.catalogue.cursors ∧ t.catalogue.counter = s.catalogue.counter ∧
      t.catalogue.entries.map (fun e => { e with fixed := true }) =
        s.catalogue.entries.map (fun e => { e with fixed := true }) ∧
      (∀ y, y ≠ l → t.engines.get y = s.engines.get y) ∧ portsQuiet s t ∧
      let y := (s.engines.get l).learn
      let e := s.engines.get l
      let learned := y.counted = some k ∧ y.remaining ≤ 1 ∧ y.count ≠ 0
      (∀ p, (t.ports.get p).events =
        (after.ports.get p).events ||| (if held = true then Event.held.flag else 0#11) |||
          (if learned then Event.learned.flag else 0#11)) ∧
        (y.counted ≠ some k → t.engines.get l = { e with work := .none }) ∧
        (y.counted = some k → 1 < y.remaining →
          t.engines.get l =
            { e with work := .none, learn := { y with counted := none, remaining := y.remaining - 1 } }) ∧
        (y.counted = some k → y.remaining ≤ 1 → y.count = 0 →
          t.engines.get l = { e with work := .none, learn := ⟨.idle, 0, 0, 0, none⟩ }) ∧
        (y.counted = some k → y.remaining ≤ 1 → y.count ≠ 0 →
          raisedEverywhere .learned t ∧
            t.engines.get l =
              { e with
                work := .none, learn := ⟨.idle, 0, 0, 0, none⟩
                settings := { e.settings with floor := min 8388607 (y.sum / y.count) } })

/-- A re-render whose positions are all done completes, from a window in its legal form: the engine's current work
becomes none; the lane record becomes DONE, or STALE with dirty cleared where dirty was set, with the peaks written:
the largest magnitude of the original values that are not void, absent where all are, and of the restored values;
the snapshot of the next block's record, if the block is in the window, is the render's hum and hiss state. Where
the record became DONE the release rule is evaluated on what was written: window, catalogue, pass and its events are
those that the rule leaves; where besides no other record of the lane is STALE, RENDERED is raised, and no other
event. Memory, tracker, rights, cursors, settings, learn and the other lanes' engines are as they were, and no entry
changes but for being fixed. -/
def Obligations.ReRenderCompletionWritesItsResults : Prop :=
  ∀ (s : State) (l : Lane) (k : Nat) (f : Flight) (b : Block) (r : LaneRecord) (h : HumState) (x : HissState),
    WindowLegal s → workOf s l = .reRender k f → f.stage = .finished → f.hum = some h → f.hiss = some x →
    blockNumbered s k = some b → b.lanes.get l = some r →
    let record : LaneRecord :=
      { r with
        render := if r.dirty = true then .stale else .done
        dirty := false, inputPeak := inputPeakOf s b l, outputPeak := outputPeakOf s b l }
    let snapshot : Snapshot := { phaseA := h.phaseA, phaseB := h.phaseB, slots := h.slots, lp := x.lp, env := x.env }
    let written : State := { s with window := completedWindow s l k record snapshot false }
    let after := if r.dirty = false then releaseRule written else written
    InputPeakIs s b l (inputPeakOf s b l) ∧ OutputPeakIs s b l (outputPeakOf s b l) ∧
    ∃ t, exec (.reRenderComplete l .rest) s = .next t ∧ workOf t l = .none ∧
      t.window = after.window ∧ t.catalogue = after.catalogue ∧ t.pass = after.pass ∧
      (∃ c ∈ t.window.blocks, c.number = k ∧ c.lanes.get l = some record) ∧
      (∀ c ∈ s.window.blocks, ∀ y, c.number = k + 1 → c.lanes.get l = some y →
        ∃ d ∈ t.window.blocks, d.number = k + 1 ∧ d.lanes.get l = some { y with snapshot := snapshot }) ∧
      t.window.memory = s.window.memory ∧ t.window.counter = s.window.counter ∧ t.tracker = s.tracker ∧
      t.rights = s.rights ∧ t.pending = s.pending ∧ t.scan = { s.scan with ready := t.scan.ready } ∧
      t.catalogue.cursors = s.catalogue.cursors ∧ t.catalogue.counter = s.catalogue.counter ∧
      t.catalogue.entries.map (fun e => { e with fixed := true }) =
        s.catalogue.entries.map (fun e => { e with fixed := true }) ∧
      (∀ y, y ≠ l → t.engines.get y = s.engines.get y) ∧ portsQuiet s t ∧
      t.engines.get l = { s.engines.get l with work := .none } ∧
      let rendered := r.dirty = false ∧ ∀ c ∈ s.window.blocks, c.number ≠ k → c.renderOf l ≠ some .stale
      (rendered → raisedEverywhere .rendered t) ∧
        (rendered → ∀ p, (t.ports.get p).events = (after.ports.get p).events ||| Event.rendered.flag) ∧
        (¬rendered → ∀ p, (t.ports.get p).events = (after.ports.get p).events)

/-- A re-render at the start of its mend stage, of a block of the window that has a record for the lane and holds
2048 positions at most, with the window memory in canonical form: RE_RENDER_COMPLETE answers a state in which the
engine has no work and the lane record is no longer WORKING; every restored value of the block on the lane lies
within -8388607..8388607; and no cell outside the block's mended and restored arrays of the lane has changed. A live
render in the same way, from before its take: where the engine has no work and no STALE block, the lowest PENDING
block of the lane is FULL with its predecessor and successor as R40 wants them, the lane's guard is 8 at most and
its detector IDLE with its next position within 4096 positions of the block's first, LIVE_RENDER_TAKE answers a
state from which LIVE_RENDER_COMPLETE answers one in which the engine has no work, the lane record is DONE, and the
same holds of the memory. That one command runs a whole render is the model's choice (log entry 9). -/
def Obligations.ReRenderRunsToItsEnd : Prop :=
  (∀ (s : State) (l : Lane) (k : Nat) (f : Flight) (b : Block), workOf s l = .reRender k f → f.stage = .mend 0 →
      blockNumbered s k = some b → (b.lanes.get l).isSome = true → b.fill ≤ 2048 → Memory.wf s.window.memory →
      ∃ t, exec (.reRenderComplete l .rest) s = .next t ∧ workOf t l = .none ∧
        (∀ c ∈ t.window.blocks, c.number = k → c.renderOf l ≠ some .working) ∧
        (∀ o, o < b.fill → -8388607 ≤ (readSample t b .restored l o).toInt ∧
          (readSample t b .restored l o).toInt ≤ 8388607) ∧
        ∀ y, (∀ o, o < b.fill → y ≠ sampleAddress b.slot .mended l o ∧ y ≠ sampleAddress b.slot .restored l o) →
          readCell t.window.memory y = readCell s.window.memory y) ∧
    ∀ (s : State) (l : Lane) (b : Block) (i : Nat), WindowLegal s → Memory.wf s.window.memory → workOf s l = .none →
      (∀ c ∈ s.window.blocks, c.renderOf l ≠ some .stale) →
      s.window.blocks.find? (fun c => c.renderOf l == some .pending) = some b → b.state = .full →
      (∀ c ∈ s.window.blocks, c.number + 1 = b.number → c.renderOf l = some .done) →
      ((∃ c ∈ s.window.blocks, c.number = b.number + 1 ∧ c.state ≠ .filling) ∨ s.window.finalBlock = some b.number) →
      (s.engines.get l).settings.guardLen ≤ 8 → (s.engines.get l).detector.state = .idle →
      (s.engines.get l).detector.next = b.first + BitVec.ofNat 40 i → i ≤ 4096 →
      ∃ u t, exec (.liveRenderTake l) s = .next u ∧ exec (.liveRenderComplete l .rest) u = .next t ∧
        workOf t l = .none ∧ (∃ c ∈ t.window.blocks, c.number = b.number ∧ c.renderOf l = some .done) ∧
        (∀ o, o < b.fill → -8388607 ≤ (readSample t b .restored l o).toInt ∧
          (readSample t b .restored l o).toInt ≤ 8388607) ∧
        ∀ y, (∀ o, o < b.fill → y ≠ sampleAddress b.slot .mended l o ∧ y ≠ sampleAddress b.slot .restored l o) →
          readCell t.window.memory y = readCell s.window.memory y

/-- The first elementary step of part 1 of a completion command, the model's unit of work (log entry 9), from a
legal window, the same for a live render and a re-render. Mend stage, position p below the fill count: where nothing
treats p, a live render writes the original value, or the void guard where that is void, and a re-render nothing.
Where an entry of the first kind of GAP, VOID, SPLICE, CLICK covers p, or in a live render a carried span where no
entry does, with the anchors read before or as they now stand: REPAIR between two anchors writes the bridge of R94;
REPAIR without a right anchor, and HOLD, the left one; both 0 without anchors; PASS the original value or the void
guard; the anchors are kept (log entry 18). At the fill count both sound states are loaded: phases and slots from
the snapshot, slots not in use at (0, 0), the tracker at block start, the increments from its S8 and the ratios
taken, absent in UNLOCKED; low band and envelope from the snapshot, the learn flag, and the threshold floor(P15 x
P13 / 16); in a live render the carried spans that end in the block or before leave. Hum and hiss stages, offset o
below the fill count: the hum function runs on the mended value with the block's events at o in list order,
suspended where the original value is void or an entry decided REPAIR or HOLD covers the position, its output
through the hiss function gives the restored value, and both states advance; in a live render that the learn counts,
the learn's sum grows by the new envelope and its count by 1. In UNLOCKED without an event, at threshold 0, with a
mended value not void, restored is mended. At the fill count all positions are done. No other cell, block or entry
changes, nor pass, tracker or rights. -/
def Obligations.UnlockedUnityStepCopiesMended : Prop :=
  ∀ (live : Bool) (s : State) (l : Lane) (k o : Nat) (f : Flight) (b : Block),
    (if live = true then workOf s l = .live k f else workOf s l = .reRender k f) → blockNumbered s k = some b →
    WindowLegal s → Memory.wf s.window.memory →
    let command : Instr := if live = true then .liveRenderComplete l (.part 1) else .reRenderComplete l (.part 1)
    let p := b.first + BitVec.ofNat 40 o
    let frame := fun (t : State) (a : SampleArray) =>
      (∀ y, y ≠ sampleAddress b.slot a l o → readCell t.window.memory y = readCell s.window.memory y) ∧
        t.window.blocks = s.window.blocks ∧ t.catalogue = s.catalogue ∧ t.pass = s.pass ∧ t.tracker = s.tracker ∧
        t.rights = s.rights
    let flies := fun (g : Flight) => if live = true then Work.live k g else Work.reRender k g
    let stands := fun (t : State) (g : Flight) => workOf t l = flies g ∧ g.settings = f.settings
    let e := s.engines.get l
    (f.stage = .mend o → o < b.fill → Untreated s live l p →
      ∃ t g, exec command s = .next t ∧ frame t .mended ∧ stands t g ∧ g.stage = .mend (o + 1) ∧
        readSample t b .mended l o =
          if live = true then passedValue s l p (readSample s b .original l o) else readSample s b .mended l o) ∧
    (∀ (kind : EntryKind) (start : Position) (span : Nat) (d : Decision), f.stage = .mend o → o < b.fill →
      Treats s live l p kind start span d →
      let a := match f.anchors.find? (fun y => y.key == ⟨kind, start⟩) with
        | some y => y.anchors
        | none => anchorsNow s l start span
      ∃ t g, exec command s = .next t ∧ frame t .mended ∧ stands t g ∧ g.stage = .mend (o + 1) ∧
        (∃ y, g.anchors.find? (fun z => z.key == ⟨kind, start⟩) = some y ∧ y.anchors = a) ∧
        readSample t b .mended l o =
          match d, a.left, a.right with
          | .pass, _, _ => passedValue s l p (readSample s b .original l o)
          | .repair, some x, some z =>
            BitVec.ofInt 24
              (x.toInt +
                ((z.toInt - x.toInt) * (((p - start).toInt.toNat : Int) + 1) + (((span + 1) / 2 : Nat) : Int)) /
                  ((span : Int) + 1))
          | .repair, some x, none => x
          | .hold, some x, _ => x
          | .repair, none, _ => 0#24
          | .hold, none, _ => 0#24) ∧
    (∀ r : LaneRecord, f.stage = .mend o → b.fill ≤ o → b.lanes.get l = some r →
      let q := f.settings
      let g : Flight :=
        { f with
          stage := .sound 0
          hum := some
            { phaseA := r.snapshot.phaseA, phaseB := r.snapshot.phaseB, point := b.start
              inc :=
                if b.start.lock = .unlocked then none
                else b.start.s8.map (fun v => ⟨(q.rhoA * 2 ^ 24 + v) / (2 * v), (q.rhoB * 2 ^ 24 + v) / (2 * v)⟩)
              slots := (List.range 12).map (fun i =>
                if i < q.harmonicsA ∨ 12 ≤ i + q.harmonicsB then r.snapshot.slots.getD i ⟨0#32, 0#32⟩
                else ⟨0#32, 0#32⟩) }
          hiss := some
            { lp := r.snapshot.lp, env := r.snapshot.env, threshold := q.floor * q.openRatio / 16
              learnFlag := r.learnFlag } }
      let kept := e.detector.carry.filter (fun c =>
        decide (passOffset s b.first + b.fill < passOffset s c.start + c.span))
      exec command s =
        .next (settle
          { s with
            engines := s.engines.set l
              { e with
                work := flies g
                detector := { e.detector with carry := if live = true then kept else e.detector.carry } } })) ∧
    (f.stage = .sound o → b.fill ≤ o →
      exec command s =
        .next (settle { s with engines := s.engines.set l { e with work := flies { f with stage := .finished } } })) ∧
    ∀ (h : HumState) (x : HissState), f.stage = .sound o → o < b.fill → f.hum = some h → f.hiss = some x →
      (∀ suspended : Bool, (suspended = true ↔ Suspended s b l o) →
        let events := (b.events.filter (fun y => decide (y.offset = o))).map (fun y => y.kind)
        let r := humPosition f.settings events suspended (readSample s b .mended l o).toInt h
        let v := hissPosition f.settings r.1 x
        ∃ t g, exec command s = .next t ∧ frame t .restored ∧ stands t g ∧ g.stage = .sound (o + 1) ∧
          g.hum = some r.2 ∧ g.hiss = some v.2 ∧ readSample t b .restored l o = v.1 ∧
          t.engines.get l =
            { e with
              work := flies g
              learn :=
                if live = true ∧ e.learn.counted = some k then
                  { e.learn with sum := e.learn.sum + v.2.env.toNat, count := e.learn.count + 1 }
                else e.learn }) ∧
        ((∀ y ∈ b.events, y.offset ≠ o) → h.point.lock = .unlocked → x.threshold = 0 →
          readSample s b .mended l o ≠ Config.voidValue →
          ∃ t g, exec command s = .next t ∧ frame t .restored ∧ stands t g ∧ g.stage = .sound (o + 1) ∧
            g.hum = some h ∧ readSample t b .restored l o = readSample s b .mended l o)

/-- For one position of the hum stage, with the mended value x within -8388607..8388607: the output lies in that
range; where the lock state in force after the position's events is UNLOCKED the output is x and no phase moves; in
LOCKED and HOLDOVER the output is x less the estimate, limited to that range, and both phases advance by their
increments modulo 2^32. The estimate is floor((acc + 2^30) / 2^31), acc the sum of c cos + s sin over the active
harmonics: harmonic h of family A in slot h - 1 and of family B in slot 12 - h, active where h times its increment
is below 2^31, at the phase h times the family's, modulo 2^32. In LOCKED and not suspended each active harmonic's c
and s become sat32(c + floor(2 e cos / 2^m)) and sat32(s + floor(2 e sin / 2^m)), e the output and m the adapt
shift, and every other slot is kept; in HOLDOVER, and in LOCKED where adaptation is suspended, no coefficient
changes. An ACCEPT or LOCK event puts LOCKED and its S8 in force and recomputes both increments, floor((ratio 2^24 +
S8) / (2 S8)), a HOLDOVER puts HOLDOVER in force with S8 and increments kept, and neither moves a phase or a
coefficient. Both increments for an S8 of 1024..524280 and ratios of 1..65535 lie in 16..536862720. sin and cos are
table entries at the phase's high 12 bits and a quarter cycle on; entries lie in -32767..32767, 0 at 0 and 2048,
23170 at 512, 32767 at 1024, -32767 at 3072, entry 4096 - i being minus entry i. -/
def Obligations.HumStageFollowsTheLockState : Prop :=
  (∀ (q : LaneSettings) (es : List TrackerEventKind) (suspended : Bool) (x : Int) (h : HumState),
      -8388607 ≤ x → x ≤ 8388607 →
      let g := es.foldl (HumState.applyEvent q) h
      let r := humPosition q es suspended x h
      let phase := fun (φ : BitVec 32) (i : Nat) => ((i + 1) * φ.toNat) % 2 ^ 32
      let term := fun (y : Coefficient) (angle : Nat) => y.c.toInt * cosOf angle + y.s.toInt * sinOf angle
      let slotAt := fun (i : Nat) => g.slots.getD i ⟨0#32, 0#32⟩
      let activeA := fun (i : Nat) => i < q.harmonicsA ∧ (i + 1) * g.incOf .a < 2 ^ 31
      let activeB := fun (i : Nat) => i < q.harmonicsB ∧ (i + 1) * g.incOf .b < 2 ^ 31
      let acc : Int :=
        ((List.range q.harmonicsA).map (fun i =>
            if (i + 1) * g.incOf .a < 2 ^ 31 then term (slotAt i) (phase g.phaseA i) else 0)).sum +
          ((List.range q.harmonicsB).map (fun i =>
            if (i + 1) * g.incOf .b < 2 ^ 31 then term (slotAt (11 - i)) (phase g.phaseB i) else 0)).sum
      let adapted := fun (v : BitVec 32) (table : Int) =>
        max (-(2 ^ 31)) (min (v.toInt + (r.1 * table * 2) / 2 ^ q.adaptShift) (2 ^ 31 - 1))
      let adaptedPair := fun (y z : Coefficient) (angle : Nat) =>
        z.c.toInt = adapted y.c (cosOf angle) ∧ z.s.toInt = adapted y.s (sinOf angle);
      (-8388607 : Int) ≤ r.1 ∧ r.1 ≤ 8388607 ∧
        (g.point.lock = .unlocked → r = (x, g)) ∧
        (g.point.lock ≠ .unlocked →
          r.1 = max (-8388607) (min (x - (acc + 2 ^ 30) / 2 ^ 31) 8388607) ∧
            r.2.phaseA.toNat = (g.phaseA.toNat + g.incOf .a) % 2 ^ 32 ∧
            r.2.phaseB.toNat = (g.phaseB.toNat + g.incOf .b) % 2 ^ 32 ∧ r.2.inc = g.inc ∧ r.2.point = g.point) ∧
        (g.point.lock = .holdover ∨ suspended = true → r.2.slots = g.slots) ∧
        (g.point.lock = .locked → suspended = false → g.slots.length = 12 → q.harmonicsA + q.harmonicsB ≤ 12 →
          r.2.slots.length = 12 ∧
            (∀ i, activeA i → adaptedPair (slotAt i) (r.2.slots.getD i ⟨0#32, 0#32⟩) (phase g.phaseA i)) ∧
            (∀ i, activeB i →
              adaptedPair (slotAt (11 - i)) (r.2.slots.getD (11 - i) ⟨0#32, 0#32⟩) (phase g.phaseB i)) ∧
            ∀ i, i < 12 → ¬activeA i → ¬activeB (11 - i) → r.2.slots[i]? = g.slots[i]?)) ∧
    (∀ (q : LaneSettings) (h : HumState) (k : TrackerEventKind),
      HumState.applyEvent q h k =
        match k with
        | .accept v | .lock v =>
          { h with
            point := ⟨.locked, some v⟩
            inc := some ⟨(q.rhoA * 2 ^ 24 + v) / (2 * v), (q.rhoB * 2 ^ 24 + v) / (2 * v)⟩ }
        | .holdover => { h with point := ⟨.holdover, h.point.s8⟩ }) ∧
    (∀ rho s8 : Nat, 1 ≤ rho → rho ≤ 65535 → 1024 ≤ s8 → s8 ≤ 524280 →
      16 ≤ increment rho s8 ∧ increment rho s8 ≤ 536862720) ∧
    (∀ angle : Nat,
      sinOf angle = sineTable (angle / 2 ^ 20) ∧ cosOf angle = sineTable ((angle / 2 ^ 20 + 1024) % 4096)) ∧
    sineTable 0 = 0 ∧ sineTable 512 = 23170 ∧ sineTable 1024 = 32767 ∧ sineTable 2048 = 0 ∧
    sineTable 3072 = -32767 ∧ (∀ i, i < 4096 → -32767 ≤ sineTable i ∧ sineTable i ≤ 32767) ∧
    ∀ i, 1 ≤ i → i ≤ 4095 → sineTable (4096 - i) = -sineTable i

/-- For one position of the hiss stage, with the hum output y and the low band within -8388607..8388607, the
envelope at most 16777214 and gmin at most 32768: the low band becomes lp + floor((y - lp) / 2^k) and lies between
its old value and y, below its old value where y is; the high band is y less the new low band, of magnitude 16777214
at most; the envelope moves by floor((|high| - env) / 2^s), s the attack shift where |high| exceeds it and the
release shift otherwise, lies between its old value and |high|, and falls where |high| is below it; the gain is
32768 where the threshold is 0, the new envelope reaches it or the learn flag is set, else the larger of gmin and
floor(32768 env / Q), and lies within gmin..32768; the restored value is lp + floor((high g + 16384) / 32768),
clamped, and is y where the gain is 32768; threshold and learn flag are kept. -/
def Obligations.HissStageFollowsTheGainLaw : Prop :=
  ∀ (q : LaneSettings) (y : Int) (x : HissState), -8388607 ≤ y → y ≤ 8388607 → -8388607 ≤ x.lp.toInt →
    x.lp.toInt ≤ 8388607 → x.env.toNat ≤ 16777214 → q.gmin ≤ 32768 →
    let lp0 := x.lp.toInt
    let env0 : Int := x.env.toNat
    let lp := lp0 + (y - lp0) / 2 ^ q.crossover
    let high := y - lp
    let env := env0 + (|high| - env0) / 2 ^ (if env0 < |high| then q.attack else q.release)
    let g : Int :=
      if x.threshold = 0 ∨ (x.threshold : Int) ≤ env ∨ x.learnFlag = true then 32768
      else max (q.gmin : Int) (32768 * env / x.threshold)
    let r := hissPosition q y x
    r.2.lp.toInt = lp ∧ (r.2.env.toNat : Int) = env ∧ r.2.threshold = x.threshold ∧ r.2.learnFlag = x.learnFlag ∧
      r.1.toInt = max (-8388607) (min (lp + (high * g + 16384) / 32768) 8388607) ∧
      min lp0 y ≤ lp ∧ lp ≤ max lp0 y ∧ (y < lp0 → lp < lp0) ∧ |high| ≤ 16777214 ∧
      min env0 |high| ≤ env ∧ env ≤ max env0 |high| ∧ (|high| < env0 → env < env0) ∧
      (q.gmin : Int) ≤ g ∧ g ≤ 32768 ∧ (g = 32768 → r.1.toInt = y)

/-- The 23 requests have the codes and the numbers of argument bytes of the table of requests, and a byte that is
none of those codes names no request. A number in k argument bytes is written with its most significant byte first;
the argument bytes of each request are its fields in the order of the table. For every request with arguments, the
arguments that its argument bytes spell are the arguments they were written from, at every value of every field, and
a run of bytes that spells arguments is the run that those arguments are written as. -/
def Obligations.ArgumentBytesRoundTrip : Prop :=
  let table : List (Request × Byte × Nat) :=
    [(.openPass, 0x01#8, 12), (.closePass, 0x02#8, 0), (.abort, 0x03#8, 0), (.splice, 0x04#8, 5),
     (.lput, 0x10#8, 6), (.learn, 0x11#8, 2), (.lget, 0x12#8, 2), (.hold, 0x20#8, 1), (.rls, 0x21#8, 4),
     (.cdec, 0x22#8, 3), (.dnext, 0x30#8, 1), (.dack, 0x31#8, 4), (.grant, 0x40#8, 2), (.rstp, 0x41#8, 0),
     (.rights, 0x42#8, 0), (.cseek, 0x50#8, 9), (.cwalk, 0x51#8, 0), (.events, 0x60#8, 0),
     (.evclr, 0x61#8, 2), (.evmask, 0x62#8, 2), (.stat, 0x70#8, 0), (.caps, 0x71#8, 1), (.probe, 0x72#8, 2)]
  (∀ r : Request, (r, r.code, r.argCount) ∈ table) ∧
    (∀ (c : Byte) (r : Request), Request.ofCode c = some r ↔ r.code = c) ∧
    (∀ (v : BitVec 16), bytes2 v = fieldBytes 2 v.toNat) ∧ (∀ (v : Word32), bytes4 v = fieldBytes 4 v.toNat) ∧
    (∀ (v : Position), bytes5 v = fieldBytes 5 v.toNat) ∧ (∀ v : Byte, byteArg v = [v]) ∧
    (∀ a : OpenArgs, a.toBytes =
      [a.laneMask, a.format] ++ fieldBytes 5 a.start.toNat ++ fieldBytes 2 a.perfMin.toNat ++
        fieldBytes 2 a.perfMax.toNat ++ [a.spliceSpan]) ∧
    (∀ a : LputArgs, a.toBytes = [a.lane, a.parameter] ++ fieldBytes 4 a.value.toNat) ∧
    (∀ a : LearnArgs, a.toBytes = [a.lane, a.blocks]) ∧ (∀ a : LgetArgs, a.toBytes = [a.lane, a.parameter]) ∧
    (∀ a : CdecArgs, a.toBytes = fieldBytes 2 a.number.toNat ++ [a.decision]) ∧
    (∀ a : GrantArgs, a.toBytes = [a.resource, a.port]) ∧
    (∀ a : CseekArgs, a.toBytes =
      [a.mode, a.direction] ++ fieldBytes 2 a.number.toNat ++ fieldBytes 5 a.position.toNat) ∧
    (∀ a : ProbeArgs, a.toBytes = [a.code, a.lane]) ∧
    (∀ (a : OpenArgs) (bs : List Byte), OpenArgs.ofBytes bs = some a ↔ bs = a.toBytes) ∧
    (∀ (a : LputArgs) (bs : List Byte), LputArgs.ofBytes bs = some a ↔ bs = a.toBytes) ∧
    (∀ (a : LearnArgs) (bs : List Byte), LearnArgs.ofBytes bs = some a ↔ bs = a.toBytes) ∧
    (∀ (a : LgetArgs) (bs : List Byte), LgetArgs.ofBytes bs = some a ↔ bs = a.toBytes) ∧
    (∀ (a : CdecArgs) (bs : List Byte), CdecArgs.ofBytes bs = some a ↔ bs = a.toBytes) ∧
    (∀ (a : GrantArgs) (bs : List Byte), GrantArgs.ofBytes bs = some a ↔ bs = a.toBytes) ∧
    (∀ (a : CseekArgs) (bs : List Byte), CseekArgs.ofBytes bs = some a ↔ bs = a.toBytes) ∧
    (∀ (a : ProbeArgs) (bs : List Byte), ProbeArgs.ofBytes bs = some a ↔ bs = a.toBytes) ∧
    (∀ (a : Position) (bs : List Byte), positionArgOf bs = some a ↔ bs = bytes5 a) ∧
    (∀ (a : Word32) (bs : List Byte), wordArgOf bs = some a ↔ bs = bytes4 a) ∧
    (∀ (a : BitVec 16) (bs : List Byte), halfArgOf bs = some a ↔ bs = bytes2 a) ∧
    (∀ (a : Byte) (bs : List Byte), byteArgOf bs = some a ↔ bs = byteArg a)

/-- From every state whose window memory lists addresses strictly rising and no cell that reads as the unwritten
value, every command leads to such a state. The layout and the unwritten value are the model's (log entries 2 and
3). -/
def Obligations.WindowMemoryKeepsCanonicalForm : Prop :=
  ∀ (c : Instr) (s t : State), Memory.wf s.window.memory → exec c s = .next t → Memory.wf t.window.memory

/-- From every state in which the scan FIFO holds 128 entries at most, is empty without a stall in IDLE, in ENDED
and after the run-out, and run-out ended is clear in RUNNING, and in which the lane mask names a lane outside IDLE,
128 <= perf_min <= perf_max <= 65535 and the splice span is 4..48, every command leads to such a state. -/
def Obligations.InputAndParametersStayLegal : Prop :=
  ∀ (c : Instr) (s t : State), InputLegal s → ParametersLegal s → exec c s = .next t → InputLegal t ∧ ParametersLegal t

/-- From every state in which the stored settings of all four lanes, and the settings taken with every work in
flight, lie in the ranges of the table of R160 with harmonic counts that sum to 12 at most, every command leads to
such a state: no LPUT, learn completion, reset or take stores a value out of range. -/
def Obligations.LaneSettingsStayInRange : Prop :=
  ∀ (c : Instr) (s t : State), SettingsLegal s → exec c s = .next t → SettingsLegal t

/-- From every state whose pass parameters are in range and whose tracker is legal (valid run equal to the length of
the history and 8 at most, every interval within the limits, reject run 3 at most, S8 absent exactly in UNLOCKED and
within 1024..524280, at most 17 held events with a start state exactly while any is held), every command leads to a
state whose tracker is legal. -/
def Obligations.TrackerStaysLegal : Prop :=
  ∀ (c : Instr) (s t : State), ParametersLegal s → TrackerLegal s → exec c s = .next t → TrackerLegal t

/-- From every state with a legal input, tracker and window (slots 0..63 held once, consecutive block numbers below
the counter, only the newest block FILLING, the RELEASED blocks the oldest, fill counts, first positions and lane
records as the pass parameters give them, no block in IDLE, only RELEASED ones in ENDED) and in which, while the
assembler may take entries, the next position is the FILLING block's first position plus its fill count, or else the
first position of the block the counter numbers, every command leads to a state with a legal window and that law. -/
def Obligations.WindowAndNextPositionStayLegal : Prop :=
  ∀ (c : Instr) (s t : State), InputLegal s → TrackerLegal s → WindowLegal s → NextPositionLaw s → exec c s = .next t → WindowLegal t ∧ NextPositionLaw t

/-- From every state whose catalogue holds 2048 entries at most, numbered 1..65535 with no number twice, in
catalogue order, with its counter in 1..65535 and every cursor on a present entry or at END, every command leads to
such a state. In such a state the number that the next entry listed receives is the first, counting up from the
counter and from 65535 on to 1, that no present entry holds, and the counter goes on to the number after it, from
65535 to 1. -/
def Obligations.CatalogueStaysLegal : Prop :=
  (∀ (c : Instr) (s t : State), CatalogueLegal s → exec c s = .next t → CatalogueLegal t) ∧
    ∀ s : State, CatalogueLegal s →
      let number := fun (i : Nat) => (s.catalogue.counter - 1 + i) % 65535 + 1
      let held := fun (n : Nat) => ∃ e ∈ s.catalogue.entries, e.number = n
      (∃ i, assignedNumber s = number i ∧ ¬held (number i) ∧ ∀ j, j < i → held (number j)) ∧
        nextNumber (assignedNumber s) = if assignedNumber s = 65535 then 1 else assignedNumber s + 1

/-- From every state with a legal input, tracker and window, the law of the next position, no void value among the
anchors that a work in flight has read, and no cell of a mended or restored array holding -8388608, every command
leads to a state with no void anchor and no such cell. -/
def Obligations.MendedAndRestoredStaySound : Prop :=
  ∀ (c : Instr) (s t : State), InputLegal s → TrackerLegal s → WindowLegal s → NextPositionLaw s → AnchorsSound s → SamplesSound s → exec c s = .next t → AnchorsSound t ∧ SamplesSound t

/-- State.reset has its outputs judged, a legal input, legal pass parameters, settings in range, a legal tracker,
window and catalogue, the law of the next position, no void anchor, no void value in a mended or restored array and
the window memory in canonical form. That no cell of a mended or restored array holds the void value rests on the
value that a cell nothing has written reads as, 0, which is the model's choice (log entry 2): the manual gives the
window memory no contents at reset. -/
def Obligations.ResetStateIsLegal : Prop :=
  OutputsJudged State.reset ∧ InputLegal State.reset ∧ ParametersLegal State.reset ∧ SettingsLegal State.reset ∧
    TrackerLegal State.reset ∧ WindowLegal State.reset ∧ NextPositionLaw State.reset ∧ CatalogueLegal State.reset ∧
    AnchorsSound State.reset ∧ SamplesSound State.reset ∧ Memory.wf State.reset.window.memory
end

