-- ==== Sys2Proof/Laws/State.lean ====
section
/-! SUPPORT. The small lemmas of the state: what each named update leaves in each part of the state, one per part per
update, and the values of one lane or one port after an update. All of them are simp lemmas, so that no later proof unfolds
a record update. -/

namespace Sys2Proof

/-! ## Lanes and ports -/

@[simp] theorem PerLane.get_set_self {α : Type} (q : PerLane α) (l : Lane) (v : α) : (q.set l v).get l = v := by
  cases l <;> rfl

@[simp] theorem PerLane.get_set_other {α : Type} (q : PerLane α) {l m : Lane} (v : α) (h : m ≠ l) :
    (q.set l v).get m = q.get m := by
  cases l <;> cases m <;> first | rfl | exact absurd rfl h

theorem PerLane.get_set {α : Type} (q : PerLane α) (l m : Lane) (v : α) :
    (q.set l v).get m = if m = l then v else q.get m := by
  split
  · next h => rw [h, PerLane.get_set_self]
  · next h => exact PerLane.get_set_other q v h

@[simp] theorem PerLane.get_mapIdx {α β : Type} (q : PerLane α) (f : Lane → α → β) (l : Lane) :
    (q.mapIdx f).get l = f l (q.get l) := by
  cases l <;> rfl

@[simp] theorem PerLane.get_same {α : Type} (v : α) (l : Lane) : (PerLane.same v).get l = v := by
  cases l <;> rfl

theorem PerLane.ext_get {α : Type} {q r : PerLane α} (h : ∀ l, q.get l = r.get l) : q = r := by
  cases q
  cases r
  have h0 := h .lane0
  have h1 := h .lane1
  have h2 := h .lane2
  have h3 := h .lane3
  simp only [PerLane.get] at h0 h1 h2 h3
  rw [h0, h1, h2, h3]

@[simp] theorem PerLane.set_get {α : Type} (q : PerLane α) (l : Lane) : q.set l (q.get l) = q := by
  cases l <;> rfl

@[simp] theorem PerPort.get_set_self {α : Type} (q : PerPort α) (p : Port) (v : α) : (q.set p v).get p = v := by
  cases p <;> rfl

@[simp] theorem PerPort.get_set_other {α : Type} (q : PerPort α) {p r : Port} (v : α) (h : r ≠ p) :
    (q.set p v).get r = q.get r := by
  cases p <;> cases r <;> first | rfl | exact absurd rfl h

theorem PerPort.get_set {α : Type} (q : PerPort α) (p r : Port) (v : α) :
    (q.set p v).get r = if r = p then v else q.get r := by
  split
  · next h => rw [h, PerPort.get_set_self]
  · next h => exact PerPort.get_set_other q v h

@[simp] theorem PerPort.set_set {α : Type} (q : PerPort α) (p : Port) (v w : α) : (q.set p v).set p w = q.set p w := by
  cases p <;> rfl

@[simp] theorem PerPort.set_get {α : Type} (q : PerPort α) (p : Port) : q.set p (q.get p) = q := by
  cases p <;> rfl

@[simp] theorem PerPort.get_map {α β : Type} (q : PerPort α) (f : α → β) (p : Port) : (q.map f).get p = f (q.get p) := by
  cases p <;> rfl

@[simp] theorem PerPort.get_same {α : Type} (v : α) (p : Port) : (PerPort.same v).get p = v := by
  cases p <;> rfl

theorem PerPort.map_set {α β : Type} (q : PerPort α) (f : α → β) (p : Port) (v : α) :
    (q.set p v).map f = (q.map f).set p (f v) := by
  cases p <;> rfl

theorem PerPort.ext_get {α : Type} {q r : PerPort α} (h : ∀ p, q.get p = r.get p) : q = r := by
  cases q
  cases r
  have h0 := h .port0
  have h1 := h .port1
  have h2 := h .port2
  simp only [PerPort.get] at h0 h1 h2
  rw [h0, h1, h2]

theorem Lane.mem_all (l : Lane) : l ∈ Lane.all := by cases l <;> decide

theorem Port.mem_all (p : Port) : p ∈ Port.all := by cases p <;> decide

namespace Machine

/-! ## setMemory -/

@[simp] theorem State.setMemory_pending (s : State) (m : WindowMemory) : (s.setMemory m).pending = s.pending := rfl

@[simp] theorem State.setMemory_pass (s : State) (m : WindowMemory) : (s.setMemory m).pass = s.pass := rfl

@[simp] theorem State.setMemory_scan (s : State) (m : WindowMemory) : (s.setMemory m).scan = s.scan := rfl

@[simp] theorem State.setMemory_tracker (s : State) (m : WindowMemory) : (s.setMemory m).tracker = s.tracker := rfl

@[simp] theorem State.setMemory_catalogue (s : State) (m : WindowMemory) : (s.setMemory m).catalogue = s.catalogue := rfl

@[simp] theorem State.setMemory_engines (s : State) (m : WindowMemory) : (s.setMemory m).engines = s.engines := rfl

@[simp] theorem State.setMemory_ports (s : State) (m : WindowMemory) : (s.setMemory m).ports = s.ports := rfl

@[simp] theorem State.setMemory_rights (s : State) (m : WindowMemory) : (s.setMemory m).rights = s.rights := rfl

/-! ## setBlocks -/

@[simp] theorem State.setBlocks_pending (s : State) (bs : List Block) : (s.setBlocks bs).pending = s.pending := rfl

@[simp] theorem State.setBlocks_pass (s : State) (bs : List Block) : (s.setBlocks bs).pass = s.pass := rfl

@[simp] theorem State.setBlocks_scan (s : State) (bs : List Block) : (s.setBlocks bs).scan = s.scan := rfl

@[simp] theorem State.setBlocks_tracker (s : State) (bs : List Block) : (s.setBlocks bs).tracker = s.tracker := rfl

@[simp] theorem State.setBlocks_catalogue (s : State) (bs : List Block) : (s.setBlocks bs).catalogue = s.catalogue := rfl

@[simp] theorem State.setBlocks_engines (s : State) (bs : List Block) : (s.setBlocks bs).engines = s.engines := rfl

@[simp] theorem State.setBlocks_ports (s : State) (bs : List Block) : (s.setBlocks bs).ports = s.ports := rfl

@[simp] theorem State.setBlocks_rights (s : State) (bs : List Block) : (s.setBlocks bs).rights = s.rights := rfl

/-! ## mapBlocks -/

@[simp] theorem State.mapBlocks_pending (s : State) (f : Block → Block) : (s.mapBlocks f).pending = s.pending := rfl

@[simp] theorem State.mapBlocks_pass (s : State) (f : Block → Block) : (s.mapBlocks f).pass = s.pass := rfl

@[simp] theorem State.mapBlocks_scan (s : State) (f : Block → Block) : (s.mapBlocks f).scan = s.scan := rfl

@[simp] theorem State.mapBlocks_tracker (s : State) (f : Block → Block) : (s.mapBlocks f).tracker = s.tracker := rfl

@[simp] theorem State.mapBlocks_catalogue (s : State) (f : Block → Block) : (s.mapBlocks f).catalogue = s.catalogue := rfl

@[simp] theorem State.mapBlocks_engines (s : State) (f : Block → Block) : (s.mapBlocks f).engines = s.engines := rfl

@[simp] theorem State.mapBlocks_ports (s : State) (f : Block → Block) : (s.mapBlocks f).ports = s.ports := rfl

@[simp] theorem State.mapBlocks_rights (s : State) (f : Block → Block) : (s.mapBlocks f).rights = s.rights := rfl

/-! ## mapBlock -/

@[simp] theorem State.mapBlock_pending (s : State) (k : Nat) (f : Block → Block) : (s.mapBlock k f).pending = s.pending := rfl

@[simp] theorem State.mapBlock_pass (s : State) (k : Nat) (f : Block → Block) : (s.mapBlock k f).pass = s.pass := rfl

@[simp] theorem State.mapBlock_scan (s : State) (k : Nat) (f : Block → Block) : (s.mapBlock k f).scan = s.scan := rfl

@[simp] theorem State.mapBlock_tracker (s : State) (k : Nat) (f : Block → Block) : (s.mapBlock k f).tracker = s.tracker := rfl

@[simp] theorem State.mapBlock_catalogue (s : State) (k : Nat) (f : Block → Block) : (s.mapBlock k f).catalogue = s.catalogue := rfl

@[simp] theorem State.mapBlock_engines (s : State) (k : Nat) (f : Block → Block) : (s.mapBlock k f).engines = s.engines := rfl

@[simp] theorem State.mapBlock_ports (s : State) (k : Nat) (f : Block → Block) : (s.mapBlock k f).ports = s.ports := rfl

@[simp] theorem State.mapBlock_rights (s : State) (k : Nat) (f : Block → Block) : (s.mapBlock k f).rights = s.rights := rfl

/-! ## setEntries -/

@[simp] theorem State.setEntries_pending (s : State) (es : List Entry) : (s.setEntries es).pending = s.pending := rfl

@[simp] theorem State.setEntries_pass (s : State) (es : List Entry) : (s.setEntries es).pass = s.pass := rfl

@[simp] theorem State.setEntries_scan (s : State) (es : List Entry) : (s.setEntries es).scan = s.scan := rfl

@[simp] theorem State.setEntries_tracker (s : State) (es : List Entry) : (s.setEntries es).tracker = s.tracker := rfl

@[simp] theorem State.setEntries_window (s : State) (es : List Entry) : (s.setEntries es).window = s.window := rfl

@[simp] theorem State.setEntries_engines (s : State) (es : List Entry) : (s.setEntries es).engines = s.engines := rfl

@[simp] theorem State.setEntries_ports (s : State) (es : List Entry) : (s.setEntries es).ports = s.ports := rfl

@[simp] theorem State.setEntries_rights (s : State) (es : List Entry) : (s.setEntries es).rights = s.rights := rfl

/-! ## setTracker -/

@[simp] theorem State.setTracker_pending (s : State) (t : Tracker) : (s.setTracker t).pending = s.pending := rfl

@[simp] theorem State.setTracker_pass (s : State) (t : Tracker) : (s.setTracker t).pass = s.pass := rfl

@[simp] theorem State.setTracker_scan (s : State) (t : Tracker) : (s.setTracker t).scan = s.scan := rfl

@[simp] theorem State.setTracker_window (s : State) (t : Tracker) : (s.setTracker t).window = s.window := rfl

@[simp] theorem State.setTracker_catalogue (s : State) (t : Tracker) : (s.setTracker t).catalogue = s.catalogue := rfl

@[simp] theorem State.setTracker_engines (s : State) (t : Tracker) : (s.setTracker t).engines = s.engines := rfl

@[simp] theorem State.setTracker_ports (s : State) (t : Tracker) : (s.setTracker t).ports = s.ports := rfl

@[simp] theorem State.setTracker_rights (s : State) (t : Tracker) : (s.setTracker t).rights = s.rights := rfl

/-! ## setScan -/

@[simp] theorem State.setScan_pending (s : State) (x : ScanInput) : (s.setScan x).pending = s.pending := rfl

@[simp] theorem State.setScan_pass (s : State) (x : ScanInput) : (s.setScan x).pass = s.pass := rfl

@[simp] theorem State.setScan_tracker (s : State) (x : ScanInput) : (s.setScan x).tracker = s.tracker := rfl

@[simp] theorem State.setScan_window (s : State) (x : ScanInput) : (s.setScan x).window = s.window := rfl

@[simp] theorem State.setScan_catalogue (s : State) (x : ScanInput) : (s.setScan x).catalogue = s.catalogue := rfl

@[simp] theorem State.setScan_engines (s : State) (x : ScanInput) : (s.setScan x).engines = s.engines := rfl

@[simp] theorem State.setScan_ports (s : State) (x : ScanInput) : (s.setScan x).ports = s.ports := rfl

@[simp] theorem State.setScan_rights (s : State) (x : ScanInput) : (s.setScan x).rights = s.rights := rfl

/-! ## setPacket -/

@[simp] theorem State.setPacket_pending (s : State) (x : PacketState) : (s.setPacket x).pending = s.pending := rfl

@[simp] theorem State.setPacket_pass (s : State) (x : PacketState) : (s.setPacket x).pass = s.pass := rfl

@[simp] theorem State.setPacket_tracker (s : State) (x : PacketState) : (s.setPacket x).tracker = s.tracker := rfl

@[simp] theorem State.setPacket_window (s : State) (x : PacketState) : (s.setPacket x).window = s.window := rfl

@[simp] theorem State.setPacket_catalogue (s : State) (x : PacketState) : (s.setPacket x).catalogue = s.catalogue := rfl

@[simp] theorem State.setPacket_engines (s : State) (x : PacketState) : (s.setPacket x).engines = s.engines := rfl

@[simp] theorem State.setPacket_ports (s : State) (x : PacketState) : (s.setPacket x).ports = s.ports := rfl

@[simp] theorem State.setPacket_rights (s : State) (x : PacketState) : (s.setPacket x).rights = s.rights := rfl

/-! ## setFill -/

@[simp] theorem State.setFill_pending (s : State) (n : Nat) : (s.setFill n).pending = s.pending := rfl

@[simp] theorem State.setFill_pass (s : State) (n : Nat) : (s.setFill n).pass = s.pass := rfl

@[simp] theorem State.setFill_tracker (s : State) (n : Nat) : (s.setFill n).tracker = s.tracker := rfl

@[simp] theorem State.setFill_window (s : State) (n : Nat) : (s.setFill n).window = s.window := rfl

@[simp] theorem State.setFill_catalogue (s : State) (n : Nat) : (s.setFill n).catalogue = s.catalogue := rfl

@[simp] theorem State.setFill_engines (s : State) (n : Nat) : (s.setFill n).engines = s.engines := rfl

@[simp] theorem State.setFill_ports (s : State) (n : Nat) : (s.setFill n).ports = s.ports := rfl

@[simp] theorem State.setFill_rights (s : State) (n : Nat) : (s.setFill n).rights = s.rights := rfl

/-! ## setContext -/

@[simp] theorem State.setContext_pending (s : State) (c : Option PacketContext) : (s.setContext c).pending = s.pending := rfl

@[simp] theorem State.setContext_pass (s : State) (c : Option PacketContext) : (s.setContext c).pass = s.pass := rfl

@[simp] theorem State.setContext_tracker (s : State) (c : Option PacketContext) : (s.setContext c).tracker = s.tracker := rfl

@[simp] theorem State.setContext_window (s : State) (c : Option PacketContext) : (s.setContext c).window = s.window := rfl

@[simp] theorem State.setContext_catalogue (s : State) (c : Option PacketContext) : (s.setContext c).catalogue = s.catalogue := rfl

@[simp] theorem State.setContext_engines (s : State) (c : Option PacketContext) : (s.setContext c).engines = s.engines := rfl

@[simp] theorem State.setContext_ports (s : State) (c : Option PacketContext) : (s.setContext c).ports = s.ports := rfl

@[simp] theorem State.setContext_rights (s : State) (c : Option PacketContext) : (s.setContext c).rights = s.rights := rfl

/-! ## mapEngine -/

@[simp] theorem State.mapEngine_pending (s : State) (l : Lane) (f : LaneEngine → LaneEngine) : (s.mapEngine l f).pending = s.pending := rfl

@[simp] theorem State.mapEngine_pass (s : State) (l : Lane) (f : LaneEngine → LaneEngine) : (s.mapEngine l f).pass = s.pass := rfl

@[simp] theorem State.mapEngine_scan (s : State) (l : Lane) (f : LaneEngine → LaneEngine) : (s.mapEngine l f).scan = s.scan := rfl

@[simp] theorem State.mapEngine_tracker (s : State) (l : Lane) (f : LaneEngine → LaneEngine) : (s.mapEngine l f).tracker = s.tracker := rfl

@[simp] theorem State.mapEngine_window (s : State) (l : Lane) (f : LaneEngine → LaneEngine) : (s.mapEngine l f).window = s.window := rfl

@[simp] theorem State.mapEngine_catalogue (s : State) (l : Lane) (f : LaneEngine → LaneEngine) : (s.mapEngine l f).catalogue = s.catalogue := rfl

@[simp] theorem State.mapEngine_ports (s : State) (l : Lane) (f : LaneEngine → LaneEngine) : (s.mapEngine l f).ports = s.ports := rfl

@[simp] theorem State.mapEngine_rights (s : State) (l : Lane) (f : LaneEngine → LaneEngine) : (s.mapEngine l f).rights = s.rights := rfl

/-! ## mapDetector -/

@[simp] theorem State.mapDetector_pending (s : State) (l : Lane) (f : Detector → Detector) : (s.mapDetector l f).pending = s.pending := rfl

@[simp] theorem State.mapDetector_pass (s : State) (l : Lane) (f : Detector → Detector) : (s.mapDetector l f).pass = s.pass := rfl

@[simp] theorem State.mapDetector_scan (s : State) (l : Lane) (f : Detector → Detector) : (s.mapDetector l f).scan = s.scan := rfl

@[simp] theorem State.mapDetector_tracker (s : State) (l : Lane) (f : Detector → Detector) : (s.mapDetector l f).tracker = s.tracker := rfl

@[simp] theorem State.mapDetector_window (s : State) (l : Lane) (f : Detector → Detector) : (s.mapDetector l f).window = s.window := rfl

@[simp] theorem State.mapDetector_catalogue (s : State) (l : Lane) (f : Detector → Detector) : (s.mapDetector l f).catalogue = s.catalogue := rfl

@[simp] theorem State.mapDetector_ports (s : State) (l : Lane) (f : Detector → Detector) : (s.mapDetector l f).ports = s.ports := rfl

@[simp] theorem State.mapDetector_rights (s : State) (l : Lane) (f : Detector → Detector) : (s.mapDetector l f).rights = s.rights := rfl

/-! ## mapLearn -/

@[simp] theorem State.mapLearn_pending (s : State) (l : Lane) (f : Learn → Learn) : (s.mapLearn l f).pending = s.pending := rfl

@[simp] theorem State.mapLearn_pass (s : State) (l : Lane) (f : Learn → Learn) : (s.mapLearn l f).pass = s.pass := rfl

@[simp] theorem State.mapLearn_scan (s : State) (l : Lane) (f : Learn → Learn) : (s.mapLearn l f).scan = s.scan := rfl

@[simp] theorem State.mapLearn_tracker (s : State) (l : Lane) (f : Learn → Learn) : (s.mapLearn l f).tracker = s.tracker := rfl

@[simp] theorem State.mapLearn_window (s : State) (l : Lane) (f : Learn → Learn) : (s.mapLearn l f).window = s.window := rfl

@[simp] theorem State.mapLearn_catalogue (s : State) (l : Lane) (f : Learn → Learn) : (s.mapLearn l f).catalogue = s.catalogue := rfl

@[simp] theorem State.mapLearn_ports (s : State) (l : Lane) (f : Learn → Learn) : (s.mapLearn l f).ports = s.ports := rfl

@[simp] theorem State.mapLearn_rights (s : State) (l : Lane) (f : Learn → Learn) : (s.mapLearn l f).rights = s.rights := rfl

/-! ## setWork -/

@[simp] theorem State.setWork_pending (s : State) (l : Lane) (w : Work) : (s.setWork l w).pending = s.pending := rfl

@[simp] theorem State.setWork_pass (s : State) (l : Lane) (w : Work) : (s.setWork l w).pass = s.pass := rfl

@[simp] theorem State.setWork_scan (s : State) (l : Lane) (w : Work) : (s.setWork l w).scan = s.scan := rfl

@[simp] theorem State.setWork_tracker (s : State) (l : Lane) (w : Work) : (s.setWork l w).tracker = s.tracker := rfl

@[simp] theorem State.setWork_window (s : State) (l : Lane) (w : Work) : (s.setWork l w).window = s.window := rfl

@[simp] theorem State.setWork_catalogue (s : State) (l : Lane) (w : Work) : (s.setWork l w).catalogue = s.catalogue := rfl

@[simp] theorem State.setWork_ports (s : State) (l : Lane) (w : Work) : (s.setWork l w).ports = s.ports := rfl

@[simp] theorem State.setWork_rights (s : State) (l : Lane) (w : Work) : (s.setWork l w).rights = s.rights := rfl

/-! ## mapPort -/

@[simp] theorem State.mapPort_pending (s : State) (p : Port) (f : PortState → PortState) : (s.mapPort p f).pending = s.pending := rfl

@[simp] theorem State.mapPort_pass (s : State) (p : Port) (f : PortState → PortState) : (s.mapPort p f).pass = s.pass := rfl

@[simp] theorem State.mapPort_scan (s : State) (p : Port) (f : PortState → PortState) : (s.mapPort p f).scan = s.scan := rfl

@[simp] theorem State.mapPort_tracker (s : State) (p : Port) (f : PortState → PortState) : (s.mapPort p f).tracker = s.tracker := rfl

@[simp] theorem State.mapPort_window (s : State) (p : Port) (f : PortState → PortState) : (s.mapPort p f).window = s.window := rfl

@[simp] theorem State.mapPort_catalogue (s : State) (p : Port) (f : PortState → PortState) : (s.mapPort p f).catalogue = s.catalogue := rfl

@[simp] theorem State.mapPort_engines (s : State) (p : Port) (f : PortState → PortState) : (s.mapPort p f).engines = s.engines := rfl

@[simp] theorem State.mapPort_rights (s : State) (p : Port) (f : PortState → PortState) : (s.mapPort p f).rights = s.rights := rfl

/-! ## setCursor -/

@[simp] theorem State.setCursor_pending (s : State) (p : Port) (c : Cursor) : (s.setCursor p c).pending = s.pending := rfl

@[simp] theorem State.setCursor_pass (s : State) (p : Port) (c : Cursor) : (s.setCursor p c).pass = s.pass := rfl

@[simp] theorem State.setCursor_scan (s : State) (p : Port) (c : Cursor) : (s.setCursor p c).scan = s.scan := rfl

@[simp] theorem State.setCursor_tracker (s : State) (p : Port) (c : Cursor) : (s.setCursor p c).tracker = s.tracker := rfl

@[simp] theorem State.setCursor_window (s : State) (p : Port) (c : Cursor) : (s.setCursor p c).window = s.window := rfl

@[simp] theorem State.setCursor_engines (s : State) (p : Port) (c : Cursor) : (s.setCursor p c).engines = s.engines := rfl

@[simp] theorem State.setCursor_ports (s : State) (p : Port) (c : Cursor) : (s.setCursor p c).ports = s.ports := rfl

@[simp] theorem State.setCursor_rights (s : State) (p : Port) (c : Cursor) : (s.setCursor p c).rights = s.rights := rfl

/-! ## withPending -/

@[simp] theorem State.withPending_pass (s : State) (cs : List Instr) : (s.withPending cs).pass = s.pass := rfl

@[simp] theorem State.withPending_scan (s : State) (cs : List Instr) : (s.withPending cs).scan = s.scan := rfl

@[simp] theorem State.withPending_tracker (s : State) (cs : List Instr) : (s.withPending cs).tracker = s.tracker := rfl

@[simp] theorem State.withPending_window (s : State) (cs : List Instr) : (s.withPending cs).window = s.window := rfl

@[simp] theorem State.withPending_catalogue (s : State) (cs : List Instr) : (s.withPending cs).catalogue = s.catalogue := rfl

@[simp] theorem State.withPending_engines (s : State) (cs : List Instr) : (s.withPending cs).engines = s.engines := rfl

@[simp] theorem State.withPending_ports (s : State) (cs : List Instr) : (s.withPending cs).ports = s.ports := rfl

@[simp] theorem State.withPending_rights (s : State) (cs : List Instr) : (s.withPending cs).rights = s.rights := rfl

/-! ## The parts that an update changes -/

@[simp] theorem State.setMemory_memory (s : State) (m : WindowMemory) : (s.setMemory m).window.memory = m := rfl

@[simp] theorem State.setMemory_blocks (s : State) (m : WindowMemory) : (s.setMemory m).window.blocks = s.window.blocks := rfl

@[simp] theorem State.setMemory_counter (s : State) (m : WindowMemory) :
    (s.setMemory m).window.counter = s.window.counter := rfl

@[simp] theorem State.setMemory_finalBlock (s : State) (m : WindowMemory) :
    (s.setMemory m).window.finalBlock = s.window.finalBlock := rfl

@[simp] theorem State.setMemory_reviewHold (s : State) (m : WindowMemory) :
    (s.setMemory m).window.reviewHold = s.window.reviewHold := rfl

@[simp] theorem State.setMemory_releaseMark (s : State) (m : WindowMemory) :
    (s.setMemory m).window.releaseMark = s.window.releaseMark := rfl

@[simp] theorem State.setBlocks_blocks (s : State) (bs : List Block) : (s.setBlocks bs).window.blocks = bs := rfl

@[simp] theorem State.setBlocks_memory (s : State) (bs : List Block) : (s.setBlocks bs).window.memory = s.window.memory := rfl

@[simp] theorem State.setBlocks_counter (s : State) (bs : List Block) :
    (s.setBlocks bs).window.counter = s.window.counter := rfl

@[simp] theorem State.setBlocks_finalBlock (s : State) (bs : List Block) :
    (s.setBlocks bs).window.finalBlock = s.window.finalBlock := rfl

@[simp] theorem State.setBlocks_reviewHold (s : State) (bs : List Block) :
    (s.setBlocks bs).window.reviewHold = s.window.reviewHold := rfl

@[simp] theorem State.setBlocks_releaseMark (s : State) (bs : List Block) :
    (s.setBlocks bs).window.releaseMark = s.window.releaseMark := rfl

@[simp] theorem State.mapBlocks_blocks (s : State) (f : Block → Block) :
    (s.mapBlocks f).window.blocks = s.window.blocks.map f := rfl

@[simp] theorem State.mapBlocks_memory (s : State) (f : Block → Block) :
    (s.mapBlocks f).window.memory = s.window.memory := rfl

@[simp] theorem State.mapBlocks_counter (s : State) (f : Block → Block) :
    (s.mapBlocks f).window.counter = s.window.counter := rfl

@[simp] theorem State.mapBlocks_finalBlock (s : State) (f : Block → Block) :
    (s.mapBlocks f).window.finalBlock = s.window.finalBlock := rfl

@[simp] theorem State.mapBlocks_reviewHold (s : State) (f : Block → Block) :
    (s.mapBlocks f).window.reviewHold = s.window.reviewHold := rfl

@[simp] theorem State.mapBlocks_releaseMark (s : State) (f : Block → Block) :
    (s.mapBlocks f).window.releaseMark = s.window.releaseMark := rfl

@[simp] theorem State.mapBlock_blocks (s : State) (k : Nat) (f : Block → Block) :
    (s.mapBlock k f).window.blocks = s.window.blocks.map (fun b => if b.number = k then f b else b) := rfl

@[simp] theorem State.mapBlock_memory (s : State) (k : Nat) (f : Block → Block) :
    (s.mapBlock k f).window.memory = s.window.memory := rfl

@[simp] theorem State.mapBlock_counter (s : State) (k : Nat) (f : Block → Block) :
    (s.mapBlock k f).window.counter = s.window.counter := rfl

@[simp] theorem State.mapBlock_finalBlock (s : State) (k : Nat) (f : Block → Block) :
    (s.mapBlock k f).window.finalBlock = s.window.finalBlock := rfl

@[simp] theorem State.mapBlock_reviewHold (s : State) (k : Nat) (f : Block → Block) :
    (s.mapBlock k f).window.reviewHold = s.window.reviewHold := rfl

@[simp] theorem State.mapBlock_releaseMark (s : State) (k : Nat) (f : Block → Block) :
    (s.mapBlock k f).window.releaseMark = s.window.releaseMark := rfl

@[simp] theorem State.setEntries_entries (s : State) (es : List Entry) : (s.setEntries es).catalogue.entries = es := rfl

@[simp] theorem State.setEntries_counter (s : State) (es : List Entry) :
    (s.setEntries es).catalogue.counter = s.catalogue.counter := rfl

@[simp] theorem State.setEntries_cursors (s : State) (es : List Entry) :
    (s.setEntries es).catalogue.cursors = s.catalogue.cursors := rfl

@[simp] theorem State.setCursor_entries (s : State) (p : Port) (c : Cursor) :
    (s.setCursor p c).catalogue.entries = s.catalogue.entries := rfl

@[simp] theorem State.setCursor_counter (s : State) (p : Port) (c : Cursor) :
    (s.setCursor p c).catalogue.counter = s.catalogue.counter := rfl

@[simp] theorem State.setCursor_cursors (s : State) (p : Port) (c : Cursor) :
    (s.setCursor p c).catalogue.cursors = s.catalogue.cursors.set p c := rfl

@[simp] theorem State.setTracker_tracker (s : State) (t : Tracker) : (s.setTracker t).tracker = t := rfl

@[simp] theorem State.setScan_scan (s : State) (x : ScanInput) : (s.setScan x).scan = x := rfl

@[simp] theorem State.setPacket_scan (s : State) (x : PacketState) :
    (s.setPacket x).scan = { s.scan with packet := x } := rfl

@[simp] theorem State.setFill_scan (s : State) (n : Nat) : (s.setFill n).scan = { s.scan with pendingFill := n } := rfl

@[simp] theorem State.setContext_scan (s : State) (c : Option PacketContext) :
    (s.setContext c).scan = { s.scan with context := c } := rfl

@[simp] theorem State.withPending_pending (s : State) (cs : List Instr) : (s.withPending cs).pending = cs := rfl

theorem State.mapEngine_engines (s : State) (l : Lane) (f : LaneEngine → LaneEngine) :
    (s.mapEngine l f).engines = s.engines.set l (f (s.engines.get l)) := rfl

@[simp] theorem State.mapEngine_get_self (s : State) (l : Lane) (f : LaneEngine → LaneEngine) :
    (s.mapEngine l f).engines.get l = f (s.engines.get l) := PerLane.get_set_self _ _ _

@[simp] theorem State.mapEngine_get_other (s : State) {l m : Lane} (f : LaneEngine → LaneEngine) (h : m ≠ l) :
    (s.mapEngine l f).engines.get m = s.engines.get m := PerLane.get_set_other _ _ h

@[simp] theorem State.setWork_get_self (s : State) (l : Lane) (w : Work) :
    (s.setWork l w).engines.get l = { s.engines.get l with work := w } := PerLane.get_set_self _ _ _

@[simp] theorem State.mapDetector_get_self (s : State) (l : Lane) (f : Detector → Detector) :
    (s.mapDetector l f).engines.get l = { s.engines.get l with detector := f (s.engines.get l).detector } :=
  PerLane.get_set_self _ _ _

@[simp] theorem State.mapLearn_get_self (s : State) (l : Lane) (f : Learn → Learn) :
    (s.mapLearn l f).engines.get l = { s.engines.get l with learn := f (s.engines.get l).learn } :=
  PerLane.get_set_self _ _ _

@[simp] theorem workOf_setWork_self (s : State) (l : Lane) (w : Work) : workOf (s.setWork l w) l = w := by
  rw [workOf, State.setWork_get_self]

@[simp] theorem State.mapPort_ports (s : State) (p : Port) (f : PortState → PortState) :
    (s.mapPort p f).ports = s.ports.set p (f (s.ports.get p)) := rfl

/-- Two changes of one port in a row are one change. -/
theorem State.mapPort_mapPort (s : State) (p : Port) (f g : PortState → PortState) :
    (s.mapPort p f).mapPort p g = s.mapPort p (fun q => g (f q)) := by
  simp only [State.mapPort, PerPort.get_set_self, PerPort.set_set]

/-! ## Raising and settling -/

@[simp] theorem raise_pending (e : Event) (s : State) : (raise e s).pending = s.pending := rfl

@[simp] theorem raise_pass (e : Event) (s : State) : (raise e s).pass = s.pass := rfl

@[simp] theorem raise_scan (e : Event) (s : State) : (raise e s).scan = s.scan := rfl

@[simp] theorem raise_tracker (e : Event) (s : State) : (raise e s).tracker = s.tracker := rfl

@[simp] theorem raise_window (e : Event) (s : State) : (raise e s).window = s.window := rfl

@[simp] theorem raise_catalogue (e : Event) (s : State) : (raise e s).catalogue = s.catalogue := rfl

@[simp] theorem raise_engines (e : Event) (s : State) : (raise e s).engines = s.engines := rfl

@[simp] theorem raise_rights (e : Event) (s : State) : (raise e s).rights = s.rights := rfl

@[simp] theorem raise_port (e : Event) (s : State) (p : Port) :
    (raise e s).ports.get p = { s.ports.get p with events := (s.ports.get p).events ||| e.flag } := by
  cases p <;> rfl

@[simp] theorem settle_pending (s : State) : (settle s).pending = s.pending := rfl

@[simp] theorem settle_pass (s : State) : (settle s).pass = s.pass := rfl

@[simp] theorem settle_tracker (s : State) : (settle s).tracker = s.tracker := rfl

@[simp] theorem settle_window (s : State) : (settle s).window = s.window := rfl

@[simp] theorem settle_catalogue (s : State) : (settle s).catalogue = s.catalogue := rfl

@[simp] theorem settle_engines (s : State) : (settle s).engines = s.engines := rfl

@[simp] theorem settle_rights (s : State) : (settle s).rights = s.rights := rfl

@[simp] theorem settle_scan (s : State) : (settle s).scan = { s.scan with ready := readyOf s } := rfl

@[simp] theorem settle_port (s : State) (p : Port) :
    (settle s).ports.get p = { s.ports.get p with attention := attentionOf (s.ports.get p) } := by
  cases p <;> rfl

/-- The outputs of a settled state are judged, so that settling it again changes nothing. -/
theorem settle_settle (s : State) : settle (settle s) = settle s := rfl

/-! ## The end of a frame -/

@[simp] theorem State.frameEnded_pending (s : State) (p : Port) (r : Result) (d : List Nibble) :
    (s.frameEnded p r d).pending = s.pending := rfl

@[simp] theorem State.frameEnded_pass (s : State) (p : Port) (r : Result) (d : List Nibble) :
    (s.frameEnded p r d).pass = s.pass := rfl

@[simp] theorem State.frameEnded_scan (s : State) (p : Port) (r : Result) (d : List Nibble) :
    (s.frameEnded p r d).scan = s.scan := rfl

@[simp] theorem State.frameEnded_tracker (s : State) (p : Port) (r : Result) (d : List Nibble) :
    (s.frameEnded p r d).tracker = s.tracker := rfl

@[simp] theorem State.frameEnded_window (s : State) (p : Port) (r : Result) (d : List Nibble) :
    (s.frameEnded p r d).window = s.window := rfl

@[simp] theorem State.frameEnded_catalogue (s : State) (p : Port) (r : Result) (d : List Nibble) :
    (s.frameEnded p r d).catalogue = s.catalogue := rfl

@[simp] theorem State.frameEnded_engines (s : State) (p : Port) (r : Result) (d : List Nibble) :
    (s.frameEnded p r d).engines = s.engines := rfl

@[simp] theorem State.frameEnded_rights (s : State) (p : Port) (r : Result) (d : List Nibble) :
    (s.frameEnded p r d).rights = s.rights := rfl

@[simp] theorem State.frameEnded_port_self (s : State) (p : Port) (r : Result) (d : List Nibble) :
    (s.frameEnded p r d).ports.get p = (s.ports.get p).afterFrame r d := PerPort.get_set_self _ _ _

@[simp] theorem State.frameEnded_port_other (s : State) {p x : Port} (r : Result) (d : List Nibble) (h : x ≠ p) :
    (s.frameEnded p r d).ports.get x = s.ports.get x := PerPort.get_set_other _ _ h

end Machine

end Sys2Proof
end

