-- ==== Sys2Proof/Laws/Frames.lean ====
section
/-! SUPPORT. Frames: what the clocking of a status reply does to a port, and what a whole frame of a request taken at frame
end comes to, refused and taken (R166, R168, R169, R174). -/

namespace Sys2Proof.Machine

theorem replyNibbles_zero (f : Nat → Byte) : replyNibbles f 0 = [] := rfl

theorem replyNibbles_succ (f : Nat → Byte) (n : Nat) :
    replyNibbles f (n + 1) = replyNibbles f n ++ [nibbleOf (f (n / 2)) n] := by
  simp [replyNibbles, List.range_succ]

theorem replyNibbles_length (f : Nat → Byte) (n : Nat) : (replyNibbles f n).length = n := by
  simp [replyNibbles]

/-- The last clock pulse of a reply, told apart from those before it. -/
theorem shiftNibbles_succ (src : Source) (p : Port) (n : Nat) (s : State) :
    shiftNibbles src p (n + 1) s = shiftNibble src p (shiftNibbles src p n s) := by
  induction n generalizing s with
  | zero => rfl
  | succ n ih => rw [shiftNibbles, ih, ← shiftNibbles]

/-- A port in REPLYING of which n nibbles of a status reply have been driven. -/
def PortState.replied (q : PortState) (bytes : List Byte) (n : Nat) (status : Byte) (driven : List Nibble) : PortState :=
  { q.startFrame .replying bytes none with pulses := n, byte := if n = 0 then 0#8 else status, driven := driven }

/-- The status byte rests on the pass state and on the port's last result, event set and mask alone. -/
theorem statusByte_congr {s t : State} {p : Port} (hp : t.pass = s.pass)
    (hl : (t.ports.get p).lastResult = (s.ports.get p).lastResult) (he : (t.ports.get p).events = (s.ports.get p).events)
    (hm : (t.ports.get p).mask = (s.ports.get p).mask) : statusByte t p = statusByte s p := by
  unfold statusByte passBusy attentionOf
  dsimp only
  rw [hp, hl, he, hm]

theorem receiveRequest_eq (p : Port) (r : Request) (args : List Byte) (s : State) :
    receiveRequest p r args s = s.mapPort p (fun q => q.replied (r.code :: args) 0 (statusByte s p) []) := rfl

/-- One pulse of a status reply. -/
theorem shiftNibble_status (p : Port) (bytes : List Byte) (n : Nat) (s : State) :
    shiftNibble statusSource p
        (s.mapPort p (fun q => q.replied bytes n (statusByte s p) (statusReply s p n))) =
      s.mapPort p (fun q => q.replied bytes (n + 1) (statusByte s p) (statusReply s p (n + 1))) := by
  have hb : statusByte (s.mapPort p (fun q => q.replied bytes n (statusByte s p) (statusReply s p n))) p = statusByte s p :=
    statusByte_congr rfl (by simp [PortState.replied, PortState.startFrame])
      (by simp [PortState.replied, PortState.startFrame]) (by simp [PortState.replied, PortState.startFrame])
  have hr : statusReply s p (n + 1) = statusReply s p n ++ [nibbleOf (statusByte s p) n] := replyNibbles_succ _ _
  have hq : ((s.mapPort p (fun q => q.replied bytes n (statusByte s p) (statusReply s p n))).ports.get p) =
      (s.ports.get p).replied bytes n (statusByte s p) (statusReply s p n) := PerPort.get_set_self _ _ _
  have hset : ∀ t : State, statusByte t p = statusByte s p → (t.ports.get p).item = [] →
      (t.ports.get p).pulses = n → composeByte statusSource p t = setByte p (statusByte s p) [] t := by
    intro t ht hi hn
    unfold composeByte
    dsimp only
    split
    · rw [ht]
    · rw [hi]
      simp [statusSource, ht]
  unfold shiftNibble
  rw [hq]
  by_cases h : n % 2 = 0
  · rw [if_pos (by simpa [PortState.replied, PortState.startFrame] using h),
      hset _ hb (by rw [hq]; rfl) (by rw [hq]; rfl)]
    simp only [setByte, State.mapPort_mapPort, hr]
    refine congrArg (State.mapPort s p) (funext fun q => ?_)
    simp [PortState.drive, PortState.replied, PortState.startFrame, nibbleOf, h]
  · rw [if_neg (by simpa [PortState.replied, PortState.startFrame] using h)]
    have hn : n ≠ 0 := by omega
    simp only [statusSource, State.mapPort_mapPort, ite_self, hr]
    refine congrArg (State.mapPort s p) (funext fun q => ?_)
    simp [PortState.drive, PortState.replied, PortState.startFrame, nibbleOf, h, hn]

/-- The clock pulses of a status reply: nothing but the port changes. -/
theorem shiftNibbles_status (p : Port) (r : Request) (args : List Byte) (n : Nat) (s : State) :
    shiftNibbles statusSource p n (receiveRequest p r args s) =
      s.mapPort p (fun q => q.replied (r.code :: args) n (statusByte s p) (statusReply s p n)) := by
  induction n with
  | zero => rfl
  | succ n ih => rw [shiftNibbles_succ, ih, shiftNibble_status]

theorem inFrame_replied (s : State) (p : Port) (r : Request) (args : List Byte) (n : Nat) (b : Byte) (d : List Nibble) :
    inFrame (s.mapPort p (fun q => q.replied (r.code :: args) n b d)) p r = true := by
  simp [inFrame, PortState.replied, PortState.startFrame]

theorem receivedArgs_replied (s : State) (p : Port) (c : Byte) (args : List Byte) (n : Nat) (b : Byte) (d : List Nibble) :
    receivedArgs (s.mapPort p (fun q => q.replied (c :: args) n b d)) p = args := by
  simp [receivedArgs, PortState.replied, PortState.startFrame]

theorem acceptance_mapPort (s : State) (p x : Port) (f : PortState → PortState) (r : Request) (lane : Byte) :
    acceptance (s.mapPort p f) x r lane = acceptance s x r lane := rfl

/-- A whole frame of a request taken at frame end whose check refuses it: the result is recorded, and nothing else changes
(R168, R174). -/
theorem commandFrame_refused {α : Type} {p : Port} {r : Request} {enc : α → List Byte} {dec : List Byte → Option α}
    {lane : α → Byte} {take : α → State → State × Result} {a : α} {n : Nat} {s : State}
    (hd : (s.ports.get p).frame = .deselected) (he : dec (enc a) = some a) (hr : acceptance s p r (lane a) ≠ .done) :
    commandFrame p r enc dec lane take (.whole a n) s =
      s.frameEnded p (acceptance s p r (lane a)) (statusReply s p n) := by
  have h : deselected s p = true := by simp [deselected, hd]
  simp only [commandFrame, h, if_true, shiftNibbles_status, finishCommand, inFrame_replied, receivedArgs_replied, he,
    acceptance_mapPort]
  simp only [endFrame, State.mapPort_mapPort]
  rfl

/-- A whole frame of a request taken at frame end that passes its checks: the owning block acts on the part with the frame
in REPLYING, and the frame ends with its result (R168, R174). -/
theorem commandFrame_taken {α : Type} {p : Port} {r : Request} {enc : α → List Byte} {dec : List Byte → Option α}
    {lane : α → Byte} {take : α → State → State × Result} {a : α} {n : Nat} {s : State}
    (hd : (s.ports.get p).frame = .deselected) (he : dec (enc a) = some a) (hr : acceptance s p r (lane a) = .done) :
    commandFrame p r enc dec lane take (.whole a n) s =
      let s1 := s.mapPort p (fun q => q.replied (r.code :: enc a) n (statusByte s p) (statusReply s p n))
      endFrame p (take a s1).2 (take a s1).1 := by
  have h : deselected s p = true := by simp [deselected, hd]
  simp only [commandFrame, h, if_true, shiftNibbles_status, finishCommand, inFrame_replied, receivedArgs_replied, he,
    acceptance_mapPort, hr]

/-- A frame that ends from REPLYING after n nibbles of a status reply, its port otherwise as the frame found it. -/
theorem endFrame_replied (s : State) (p : Port) (r : Result) (bytes : List Byte) (n : Nat) (b : Byte) (d : List Nibble) :
    endFrame p r (s.mapPort p (fun q => q.replied bytes n b d)) = s.frameEnded p r d := by
  simp only [endFrame, State.mapPort_mapPort]
  rfl

/-- A part of a frame that the port's frame state does not allow carries nothing. -/
theorem commandFrame_reply_outside {α : Type} {p : Port} {r : Request} {enc : α → List Byte} {dec : List Byte → Option α}
    {lane : α → Byte} {take : α → State → State × Result} {n : Nat} {s : State} (h : inFrame s p r = false) :
    commandFrame p r enc dec lane take (.reply n) s = s := by
  simp [commandFrame, h]

end Sys2Proof.Machine
end

