-- ==== Sys2Proof/Laws/Memory.lean ====
section
/-! SUPPORT. The window memory: a read after a write to the same cell gives the value written, a write leaves every other
cell as it reads, and every write keeps the canonical form. -/

namespace Sys2Proof.Machine

/-- The memory after pin reset is in canonical form. -/
theorem Memory.wf_reset : Memory.wf State.reset.window.memory := by decide

theorem Memory.wf_tail {c : SampleCell} {m : WindowMemory} (h : Memory.wf (c :: m)) : Memory.wf m :=
  ⟨(List.pairwise_cons.mp h.1).2, fun d hd => h.2 d (List.mem_cons_of_mem _ hd)⟩

/-- A cell below every listed address reads as the unwritten value. -/
theorem readCell_below {m : WindowMemory} {a : Nat} (h : ∀ c ∈ m, a < c.1) : readCell m a = Config.unwrittenSample := by
  induction m with
  | nil => rfl
  | cons c m ih =>
    obtain ⟨b, v⟩ := c
    have hb : a < b := h (b, v) (List.mem_cons_self ..)
    rw [readCell, if_neg (Nat.ne_of_lt hb), ih (fun c hc => h c (List.mem_cons_of_mem _ hc))]

theorem readCell_putCell_self {m : WindowMemory} {a : Nat} (v : Sample) (h : ∀ c ∈ m, a < c.1) :
    readCell (putCell a v m) a = v := by
  unfold putCell
  split
  · next hv => rw [readCell_below h, hv]
  · rw [readCell, if_pos rfl]

theorem readCell_putCell_other {m : WindowMemory} {a b : Nat} (v : Sample) (h : b ≠ a) :
    readCell (putCell a v m) b = readCell m b := by
  unfold putCell
  split
  · rfl
  · rw [readCell, if_neg h]

/-- A read after a write to the same cell gives the value written. -/
theorem readCell_writeCell_self {m : WindowMemory} (hm : Memory.wf m) (a : Nat) (v : Sample) :
    readCell (writeCell m a v) a = v := by
  induction m with
  | nil => exact readCell_putCell_self v (by simp)
  | cons c m ih =>
    obtain ⟨b, w⟩ := c
    have above : ∀ d ∈ m, b < d.1 := (List.pairwise_cons.mp hm.1).1
    rw [writeCell]
    split
    · next h =>
      refine readCell_putCell_self v (fun d hd => ?_)
      rcases List.mem_cons.mp hd with rfl | hd
      · exact h
      · exact Nat.lt_trans h (above d hd)
    · split
      · next h => exact readCell_putCell_self v (fun d hd => h ▸ above d hd)
      · next h1 h2 => rw [readCell, if_neg h2, ih (Memory.wf_tail hm)]

/-- A write leaves every other cell as it reads, in any memory. -/
theorem readCell_writeCell_other {m : WindowMemory} {a b : Nat} (v : Sample) (h : b ≠ a) :
    readCell (writeCell m a v) b = readCell m b := by
  induction m with
  | nil => exact readCell_putCell_other v h
  | cons c m ih =>
    obtain ⟨d, w⟩ := c
    rw [writeCell]
    split
    · exact readCell_putCell_other v h
    · split
      · next h2 =>
        subst h2
        rw [readCell_putCell_other v h, readCell, if_neg h]
      · rw [readCell, readCell, ih]

theorem mem_putCell {m : WindowMemory} {a : Nat} {v : Sample} {c : SampleCell} (h : c ∈ putCell a v m) :
    (c = (a, v) ∧ v ≠ Config.unwrittenSample) ∨ c ∈ m := by
  unfold putCell at h
  split at h
  · exact .inr h
  · next hv =>
    rcases List.mem_cons.mp h with rfl | h
    · exact .inl ⟨rfl, hv⟩
    · exact .inr h

theorem mem_writeCell {m : WindowMemory} {a : Nat} {v : Sample} {c : SampleCell} (h : c ∈ writeCell m a v) :
    (c = (a, v) ∧ v ≠ Config.unwrittenSample) ∨ c ∈ m := by
  induction m with
  | nil => exact mem_putCell h
  | cons d m ih =>
    obtain ⟨b, w⟩ := d
    rw [writeCell] at h
    split at h
    · exact mem_putCell h
    · split at h
      · rcases mem_putCell h with h | h
        · exact .inl h
        · exact .inr (List.mem_cons_of_mem _ h)
      · rcases List.mem_cons.mp h with rfl | h
        · exact .inr (List.mem_cons_self ..)
        · rcases ih h with h | h
          · exact .inl h
          · exact .inr (List.mem_cons_of_mem _ h)

theorem pairwise_putCell {m : WindowMemory} {a : Nat} {v : Sample} (hm : m.Pairwise (fun c d => c.1 < d.1))
    (h : ∀ c ∈ m, a < c.1) : (putCell a v m).Pairwise (fun c d => c.1 < d.1) := by
  unfold putCell
  split
  · exact hm
  · exact List.pairwise_cons.mpr ⟨h, hm⟩

/-- Every write keeps the canonical form. -/
theorem writeCell_wf {m : WindowMemory} (hm : Memory.wf m) (a : Nat) (v : Sample) : Memory.wf (writeCell m a v) := by
  refine ⟨?_, fun c hc => ?_⟩
  · have hp := hm.1
    clear hm
    induction m with
    | nil => exact pairwise_putCell .nil (by simp)
    | cons c m ih =>
      obtain ⟨b, w⟩ := c
      have above := (List.pairwise_cons.mp hp).1
      have tail := (List.pairwise_cons.mp hp).2
      rw [writeCell]
      split
      · next h =>
        refine pairwise_putCell hp (fun d hd => ?_)
        rcases List.mem_cons.mp hd with rfl | hd
        · exact h
        · exact Nat.lt_trans h (above d hd)
      · split
        · next h => exact pairwise_putCell tail (fun d hd => h ▸ above d hd)
        · next h1 h2 =>
          refine List.pairwise_cons.mpr ⟨fun d hd => ?_, ih tail⟩
          rcases mem_writeCell hd with ⟨rfl, -⟩ | hd
          · exact Nat.lt_of_le_of_ne (Nat.not_lt.mp h1) (Ne.symm h2)
          · exact above d hd
  · rcases mem_writeCell hc with ⟨rfl, hv⟩ | hc
    · exact hv
    · exact hm.2 c hc

/-- Two memories in canonical form that read alike are equal. -/
theorem Memory.ext_read {m n : WindowMemory} (hm : Memory.wf m) (hn : Memory.wf n)
    (h : ∀ a, readCell m a = readCell n a) : m = n := by
  induction m generalizing n with
  | nil =>
    cases n with
    | nil => rfl
    | cons d n =>
      obtain ⟨b, w⟩ := d
      have hb := h b
      rw [readCell, readCell, if_pos rfl] at hb
      exact absurd hb.symm (hn.2 (b, w) (List.mem_cons_self ..))
  | cons c m ih =>
    obtain ⟨a, v⟩ := c
    have am := (List.pairwise_cons.mp hm.1).1
    have hv := hm.2 (a, v) (List.mem_cons_self ..)
    cases n with
    | nil =>
      have ha := h a
      rw [readCell, readCell, if_pos rfl] at ha
      exact absurd ha hv
    | cons d n =>
      obtain ⟨b, w⟩ := d
      have bn := (List.pairwise_cons.mp hn.1).1
      have hw := hn.2 (b, w) (List.mem_cons_self ..)
      have hab : a = b := by
        rcases Nat.lt_trichotomy a b with hlt | heq | hgt
        · have ha := h a
          rw [readCell, if_pos rfl, readCell, if_neg (Nat.ne_of_lt hlt),
            readCell_below (fun c hc => Nat.lt_trans hlt (bn c hc))] at ha
          exact absurd ha hv
        · exact heq
        · have hb := h b
          rw [readCell, if_neg (Nat.ne_of_lt hgt), readCell, if_pos rfl,
            readCell_below (fun c hc => Nat.lt_trans hgt (am c hc))] at hb
          exact absurd hb.symm hw
      subst hab
      have hvw : v = w := by
        have ha := h a
        rwa [readCell, if_pos rfl, readCell, if_pos rfl] at ha
      subst hvw
      refine congrArg _ (ih (Memory.wf_tail hm) (Memory.wf_tail hn) (fun x => ?_))
      rcases eq_or_ne x a with rfl | hx
      · rw [readCell_below am, readCell_below bn]
      · have hxx := h x
        rwa [readCell, if_neg hx, readCell, if_neg hx] at hxx

/-- The cells of one array of one lane of one block are told apart by their offsets, and those of different arrays, lanes or
slots by their places. -/
theorem sampleAddress_injective {s s' o o' : Nat} {a a' : SampleArray} {l l' : Lane} (ho : o < Config.blockSize)
    (ho' : o' < Config.blockSize) (h : sampleAddress s a l o = sampleAddress s' a' l' o') :
    s = s' ∧ a = a' ∧ l = l' ∧ o = o' := by
  simp only [sampleAddress, Config.blockSize] at h ho ho'
  have hl : l.toNat < 4 := by cases l <;> decide
  have hl' : l'.toNat < 4 := by cases l' <;> decide
  have ha : a.toNat < 3 := by cases a <;> decide
  have ha' : a'.toNat < 3 := by cases a' <;> decide
  have h1 : s = s' := by omega
  have h2 : l.toNat = l'.toNat := by omega
  have h3 : a.toNat = a'.toNat := by omega
  have h4 : o = o' := by omega
  refine ⟨h1, ?_, ?_, h4⟩
  · cases a <;> cases a' <;> first | rfl | (simp only [SampleArray.toNat] at h3; omega)
  · cases l <;> cases l' <;> first | rfl | (simp only [Lane.toNat] at h2; omega)

/-- A written sample reads back at its own place. -/
theorem readSample_writeSample_self {s : State} (hm : Memory.wf s.window.memory) (b : Block) (a : SampleArray) (l : Lane)
    (o : Nat) (v : Sample) : readSample (writeSample s b a l o v) b a l o = v :=
  readCell_writeCell_self hm _ _

/-- A written sample changes no other cell. -/
theorem readCell_writeSample_other (s : State) (b : Block) (a : SampleArray) (l : Lane) (o : Nat) (v : Sample) {x : Nat}
    (h : x ≠ sampleAddress b.slot a l o) :
    readCell (writeSample s b a l o v).window.memory x = readCell s.window.memory x :=
  readCell_writeCell_other v h

/-- A written sample keeps the canonical form. -/
theorem writeSample_wf {s : State} (hm : Memory.wf s.window.memory) (b : Block) (a : SampleArray) (l : Lane) (o : Nat)
    (v : Sample) : Memory.wf (writeSample s b a l o v).window.memory :=
  writeCell_wf hm _ _

end Sys2Proof.Machine
end

