-- ==== Sys2Proof/Laws/Ops.lean ====
section
/-! SUPPORT. One lemma for each shared operation that says once everything it can do, so that later proofs cite it and do
not unfold the operation. -/

namespace Sys2Proof.Machine

/-! ## Events -/

/-- Whether a set holds an event. -/
theorem raise_sets (e : Event) (s : State) (p : Port) : ((raise e s).ports.get p).events &&& e.flag = e.flag := by
  rw [raise_port]
  ext i hi
  simp only [BitVec.getElem_and, BitVec.getElem_or]
  cases (e.flag)[i] <;> simp

/-- A flag already set stays set (R176). -/
theorem raise_keeps (e : Event) (s : State) (p : Port) :
    (s.ports.get p).events &&& ((raise e s).ports.get p).events = (s.ports.get p).events := by
  rw [raise_port]
  ext i hi
  simp only [BitVec.getElem_and, BitVec.getElem_or]
  cases ((s.ports.get p).events)[i] <;> simp

/-! ## The catalogue -/

theorem insertEntry_perm (s : State) (e : Entry) (es : List Entry) : (insertEntry s e es).Perm (e :: es) := by
  induction es with
  | nil => exact .refl _
  | cons a rest ih =>
    rw [insertEntry]
    split
    · exact .refl _
    · exact (List.Perm.cons a ih).trans (.swap e a rest)

/-- A listing adds one entry, under the number assigned to it, and keeps every other (R56, R59). -/
theorem listEntry_perm (e : Entry) (s : State) :
    (listEntry e s).catalogue.entries.Perm ({ e with number := assignedNumber s } :: s.catalogue.entries) := by
  unfold listEntry
  dsimp only
  split <;> exact insertEntry_perm _ _ _

/-- The counter after a listing (R56). -/
theorem listEntry_counter (e : Entry) (s : State) :
    (listEntry e s).catalogue.counter = nextNumber (assignedNumber s) := by
  unfold listEntry
  dsimp only
  split <;> rfl

/-- A listing moves no cursor (R59, R69). -/
theorem listEntry_cursors (e : Entry) (s : State) : (listEntry e s).catalogue.cursors = s.catalogue.cursors := by
  unfold listEntry
  dsimp only
  split <;> rfl

/-- A listing changes the catalogue and the event sets alone. -/
theorem listEntry_frame (e : Entry) (s : State) :
    (listEntry e s).pending = s.pending ∧ (listEntry e s).pass = s.pass ∧ (listEntry e s).scan = s.scan ∧
      (listEntry e s).tracker = s.tracker ∧ (listEntry e s).window = s.window ∧ (listEntry e s).engines = s.engines ∧
      (listEntry e s).rights = s.rights := by
  unfold listEntry
  dsimp only
  split <;> exact ⟨rfl, rfl, rfl, rfl, rfl, rfl, rfl⟩

/-- CATHIGH is raised exactly by the listing that makes the count 1920 (R63). -/
theorem listEntry_ports (e : Entry) (s : State) :
    (listEntry e s).ports =
      if s.catalogue.entries.length + 1 = Config.catalogueHigh then (raise .cathigh s).ports else s.ports := by
  have h : (insertEntry s { e with number := assignedNumber s } s.catalogue.entries).length =
      s.catalogue.entries.length + 1 := (insertEntry_perm _ _ _).length_eq
  unfold listEntry
  dsimp only
  rw [h]
  split <;> rfl

theorem nextNumber_range {n : Nat} (h : n ≤ Config.maxEntryNumber) :
    1 ≤ nextNumber n ∧ nextNumber n ≤ Config.maxEntryNumber := by
  unfold nextNumber
  split <;> simp only [Config.maxEntryNumber] at * <;> omega

/-- The entries that stay when a block's entries are removed (R67). -/
theorem mem_removeEntriesOf {k : Nat} {s : State} {e : Entry} :
    e ∈ (removeEntriesOf k s).catalogue.entries ↔ e ∈ s.catalogue.entries ∧ startsIn s k e = false := by
  simp [removeEntriesOf]

/-! ## Stale requests -/

/-- A stale request changes nothing, or changes the lane records of its lane from its block on (R45). -/
theorem staleRequest_cases (l : Lane) (b : Nat) (s : State) :
    staleRequest l b s = s ∨
      staleRequest l b s = s.mapBlocks (fun k => if b ≤ k.number then k.mapRecord l LaneRecord.stale else k) := by
  unfold staleRequest
  split
  · exact .inl rfl
  · exact .inl rfl
  · exact .inr rfl

/-- Stale requests change the lane records of the window's blocks alone. -/
theorem staleRequests_frame (ls : List Lane) (b : Nat) (s : State) :
    ∃ f : Block → Block, staleRequests ls b s = s.mapBlocks f ∧
      ∀ k, (f k).slot = k.slot ∧ (f k).number = k.number ∧ (f k).first = k.first ∧ (f k).fill = k.fill ∧
        (f k).state = k.state ∧ (f k).events = k.events ∧ (f k).start = k.start := by
  induction ls generalizing s with
  | nil =>
    refine ⟨id, ?_, fun k => ⟨rfl, rfl, rfl, rfl, rfl, rfl, rfl⟩⟩
    simp [staleRequests, State.mapBlocks, State.setBlocks]
  | cons l ls ih =>
    obtain ⟨f, hf, hk⟩ := ih (staleRequest l b s)
    have hfold : staleRequests (l :: ls) b s = staleRequests ls b (staleRequest l b s) := rfl
    rcases staleRequest_cases l b s with h | h
    · refine ⟨f, ?_, hk⟩
      rw [hfold, hf, h]
    · refine ⟨fun k => f (if b ≤ k.number then k.mapRecord l LaneRecord.stale else k), ?_, fun k => ?_⟩
      · rw [hfold, hf, h]
        simp [State.mapBlocks, State.setBlocks, Function.comp_def]
      · dsimp only
        split
        · exact hk _
        · exact hk _

/-! ## Tracker events -/

/-- What the publishing of an event does: the last published position is set, and the event is placed in the FILLING or FULL
block that holds its position, or held where no block holds it and its block is yet to be secured, or, in a block that is
past its first renders or for a position behind the window, neither (R30). -/
theorem publish_cases (before : LockPoint) (k : TrackerEventKind) (want : Position) (s : State) :
    let pos := publishPosition s.tracker want
    let u := s.setTracker { s.tracker with lastPublished := some pos }
    (∃ b, blockHolding u pos = some b ∧ (b.state = .filling ∨ b.state = .full) ∧
        publish before k want s = placeEvent b pos k u) ∨
      (blockHolding u pos = none ∧ yetToSecure u pos = true ∧ publish before k want s = holdEvent before pos k u) ∨
      (((∃ b, blockHolding u pos = some b ∧ b.state ≠ .filling ∧ b.state ≠ .full) ∨
          (blockHolding u pos = none ∧ yetToSecure u pos = false)) ∧ publish before k want s = u) := by
  intro pos u
  have hp : publish before k want s =
      match blockHolding u pos with
      | some b => if b.state = .filling ∨ b.state = .full then placeEvent b pos k u else u
      | none => if yetToSecure u pos then holdEvent before pos k u else u := rfl
  rw [hp]
  cases hb : blockHolding u pos with
  | some b =>
    by_cases h : b.state = .filling ∨ b.state = .full
    · exact .inl ⟨b, rfl, h, if_pos h⟩
    · exact .inr (.inr ⟨.inl ⟨b, rfl, not_or.mp h⟩, if_neg h⟩)
  | none =>
    cases h : yetToSecure u pos with
    | true => exact .inr (.inl ⟨rfl, rfl, rfl⟩)
    | false => exact .inr (.inr ⟨.inr ⟨rfl, rfl⟩, rfl⟩)

/-! ## Release and the end of a pass -/

/-- A block named by the release rule is in the window, HELD, with every record DONE and its hold waived (R46). -/
theorem mem_releasable {s : State} {bs : List Block} {k : Nat} (h : k ∈ releasable s bs) :
    ∃ b ∈ bs, b.number = k ∧ b.state = .held ∧ b.allDone = true ∧ holdWaived s k = true := by
  induction bs with
  | nil => cases h
  | cons b rest ih =>
    rw [releasable] at h
    split at h
    · obtain ⟨c, hc, hh⟩ := ih h
      exact ⟨c, List.mem_cons_of_mem _ hc, hh⟩
    · next hs =>
      split at h
      · next hw =>
        rcases List.mem_cons.mp h with rfl | h
        · simp only [Bool.and_eq_true] at hw
          exact ⟨b, List.mem_cons_self .., rfl, hs, hw.1, hw.2⟩
        · obtain ⟨c, hc, hh⟩ := ih h
          exact ⟨c, List.mem_cons_of_mem _ hc, hh⟩
      · cases h
    · cases h
    · cases h

/-- A release changes block states, fixed marks and event sets alone (R47). -/
theorem releaseBlock_frame (s : State) (k : Nat) :
    (releaseBlock s k).pending = s.pending ∧ (releaseBlock s k).pass = s.pass ∧ (releaseBlock s k).scan = s.scan ∧
      (releaseBlock s k).tracker = s.tracker ∧ (releaseBlock s k).window.memory = s.window.memory ∧
      (releaseBlock s k).window.counter = s.window.counter ∧
      (releaseBlock s k).window.finalBlock = s.window.finalBlock ∧
      (releaseBlock s k).window.reviewHold = s.window.reviewHold ∧
      (releaseBlock s k).window.releaseMark = s.window.releaseMark ∧
      (releaseBlock s k).engines = s.engines ∧ (releaseBlock s k).rights = s.rights :=
  ⟨rfl, rfl, rfl, rfl, rfl, rfl, rfl, rfl, rfl, rfl, rfl⟩

/-- An ENDED pass with an empty window becomes IDLE with PASSEND; otherwise nothing happens (R156). -/
theorem endedToIdle_cases (s : State) :
    (endedToIdle s = s ∧ ¬(s.pass.state = .ended ∧ s.window.blocks = [])) ∨
      (s.pass.state = .ended ∧ s.window.blocks = [] ∧
        endedToIdle s =
          raise .passend
            { s with pass := { s.pass with state := .idle }, window := { s.window with finalBlock := none } }) := by
  unfold endedToIdle
  split
  · next h => exact .inr ⟨h.1, h.2, rfl⟩
  · next h => exact .inl ⟨rfl, h⟩

/-- The report that all blocks are released has an effect in CLOSING alone, after the run-out, with every block RELEASED
(R47, R155). -/
theorem reportReleased_cases (s : State) :
    reportReleased s = s ∨
      (s.pass.state = .closing ∧ s.pass.runOutEnded = true ∧
        s.window.blocks.all (fun b => b.state == .released) = true ∧
        reportReleased s = endedToIdle { s with pass := { s.pass with state := .ended } }) := by
  unfold reportReleased
  split
  · next h => exact .inr ⟨h.1, h.2.1, h.2.2, rfl⟩
  · exact .inl rfl

/-! ## Scan Input -/

/-- Securing a block: a block is FILLING already, or the pass has reached its last block, or no slot is FREE, or the lowest
FREE slot is taken (R17, R18, R35). -/
theorem secure_cases (s : State) :
    ((fillingBlock s).isSome ∧ secure s = .done s) ∨
      (fillingBlock s = none ∧ Config.maxBlocks ≤ s.window.counter ∧ secure s = .ended (endInput s)) ∨
      (fillingBlock s = none ∧ s.window.counter < Config.maxBlocks ∧ freeSlot s = none ∧
        secure s = .stalled (beginStall s) 0) ∨
      ∃ slot, fillingBlock s = none ∧ s.window.counter < Config.maxBlocks ∧ freeSlot s = some slot ∧
        secure s = .done (takeSlot slot s) := by
  unfold secure
  by_cases hf : (fillingBlock s).isSome
  · exact .inl ⟨hf, by rw [if_pos hf]⟩
  · have hn : fillingBlock s = none := by simpa using hf
    rw [if_neg hf]
    by_cases hc : Config.maxBlocks ≤ s.window.counter
    · exact .inr (.inl ⟨hn, hc, by rw [if_pos hc]⟩)
    · rw [if_neg hc]
      cases h : freeSlot s with
      | none => exact .inr (.inr (.inl ⟨hn, Nat.not_le.mp hc, rfl, rfl⟩))
      | some slot => exact .inr (.inr (.inr ⟨slot, hn, Nat.not_le.mp hc, rfl, rfl⟩))

/-- A FREE slot is a slot of the window that no block holds (R35). -/
theorem freeSlot_free {s : State} {i : Nat} (h : freeSlot s = some i) :
    i < Config.slotCount ∧ ∀ b ∈ s.window.blocks, b.slot ≠ i := by
  have hp := List.find?_some h
  have hm := List.mem_of_find?_eq_some h
  refine ⟨List.mem_range.mp hm, fun b hb => ?_⟩
  have := List.all_eq_true.mp hp b hb
  simpa using this

/-- The assembler takes the oldest entry where it takes entries and the entry has the tag asked for; otherwise nothing
happens (R4). -/
theorem takeOldest_cases (t : Tag) (s : State) :
    takeOldest t s = s ∨
      ∃ e rest, s.scan.fifo = e :: rest ∧ e.tag = t ∧ assemblerTakes s = true ∧
        takeOldest t s = takeEntry e (s.setScan { s.scan with fifo := rest }) := by
  unfold takeOldest
  split
  · exact .inl rfl
  · next e rest h =>
    split
    · next hc =>
      simp only [Bool.and_eq_true, beq_iff_eq] at hc
      exact .inr ⟨e, rest, h, hc.2, hc.1, rfl⟩
    · exact .inl rfl

/-! ## The lane engines -/

/-- Up to no steps is no step, and a finished work takes none. -/
theorem advance_finished {l : Lane} {s : State} (h : stageOf s l = some .finished) (n : Nat) : advance l n s = s := by
  cases n with
  | zero => rfl
  | succ n => rw [advance, if_pos h]

/-- A block taken for a live render was FULL and PENDING for the lane, with no STALE block and no work before it (R40). -/
theorem liveChoice_spec {s : State} {l : Lane} {b : Block} (h : liveChoice s l = some b) :
    engineIdle s l = true ∧ lowestStale s l = none ∧ lowestPending s l = some b ∧ b.state = .full ∧
      predecessorReady s l b.number = true ∧ successorReady s b.number = true := by
  unfold liveChoice at h
  split at h
  · next hc =>
    simp only [Bool.and_eq_true, Option.isNone_iff_eq_none] at hc
    split at h
    · cases h
    · next c hp =>
      split at h
      · next hb =>
        simp only [Bool.and_eq_true, beq_iff_eq] at hb
        cases h
        exact ⟨hc.1, hc.2, hp, hb.1.1, hb.1.2, hb.2⟩
      · cases h
  · cases h

/-- A block taken for a re-render is the lowest STALE block of the lane (R134). -/
theorem reRenderChoice_spec {s : State} {l : Lane} {b : Block} (h : reRenderChoice s l = some b) :
    engineIdle s l = true ∧ lowestStale s l = some b := by
  unfold reRenderChoice at h
  split at h
  · next hc => exact ⟨hc, h⟩
  · cases h

/-! ## Numbers -/

theorem clampInt_range {m x : Int} (h : 0 ≤ m) : -m ≤ clampInt m x ∧ clampInt m x ≤ m := by
  unfold clampInt
  omega

theorem clampNat_range {lo hi v : Nat} (h : lo ≤ hi) : lo ≤ clampNat lo hi v ∧ clampNat lo hi v ≤ hi := by
  unfold clampNat
  omega

theorem sat32_range (x : Int) : -(2 ^ 31) ≤ sat32 x ∧ sat32 x ≤ 2 ^ 31 - 1 := by
  unfold sat32
  omega

end Sys2Proof.Machine
end

