-- ==== Sys2Proof/Laws/Detect.lean ====
section
/-! SUPPORT. What the tests of detection and the bind of a drain read mean, in the words of the statements: one lemma for
each, which later proofs cite. -/

namespace Sys2Proof.Machine

/-! ## Spans -/

theorem entryCovers_iff {s : State} {e : Entry} {q : Position} : entryCovers s e q = true ↔ e.CoversPosition s q := by
  unfold entryCovers Entry.CoversPosition covers
  cases e.span <;> simp

theorem blocks_iff {e : Entry} {l : Lane} : e.blocks l = true ↔ e.Obstructs l := by
  simp [Entry.blocks, Entry.Obstructs, or_assoc]

theorem entryOverlaps_iff {s : State} {e : Entry} {p : Position} {n : Nat} :
    entryOverlaps s e p n = true ↔ e.Meets s p n := by
  unfold entryOverlaps Entry.Meets spansOverlap
  cases e.span <;> simp

/-! ## Detection -/

/-- A position that starts or joins a void run (R77). -/
theorem freeVoid_iff {s : State} {l : Lane} {q : Position} :
    (voidAt s l q && !inGapSpan s q) = true ↔ FreeVoid s l q := by
  simp [voidAt, inGapSpan, FreeVoid, Config.voidValue, ← entryCovers_iff]

theorem soundAt_iff {s : State} {l : Lane} {q : Position} {x : Int} :
    soundAt s l q = some x ↔ Unblocked s l q x := by
  unfold soundAt Unblocked blockedAt voidAt
  simp only [← entryCovers_iff, ← blocks_iff, Config.voidValue]
  cases inPass s q <;> cases originalAt s l q <;> simp
  grind

/-- The residual at a position, where it is computable (R78). -/
theorem residual_iff {s : State} {l : Lane} {q : Position} {r : Int} : residual s l q = some r ↔ ResidualIs s l q r := by
  unfold residual ResidualIs
  simp only [← soundAt_iff]
  cases soundAt s l q <;> cases soundAt s l (q - 1#40) <;> cases soundAt s l (q - 2#40) <;> simp [eq_comm]

/-- A position without a residual (R78, R84). -/
theorem residual_none_iff {s : State} {l : Lane} {q : Position} :
    residual s l q = none ↔ ∀ r, ¬ResidualIs s l q r := by
  simp only [← residual_iff]
  cases residual s l q <;> simp

/-! ## Drain reads -/

/-- The bind of a drain read chooses its block and its length, and nothing else (R182). -/
theorem DrainRead.bind_frame (s : State) (d : DrainRead) :
    (d.bind s).selector = d.selector ∧ (d.bind s).cut = d.cut ∧ (d.bind s).shifted = d.shifted ∧
      (d.bind s).bound ≠ .unchosen := by
  unfold DrainRead.bind
  split
  · next h => split <;> simp
  · next h => simp [h]
  · next h => simp [h]

/-- A cut read, and one bound to NONE, streams no byte of a record (R185, R187). -/
theorem DrainRead.record_empty {s : State} {d : DrainRead} (h : d.cut = true ∨ d.bound = .nothing) : d.record s = [] := by
  unfold DrainRead.record
  rcases h with h | h
  · split <;> simp_all
  · split <;> simp_all

end Sys2Proof.Machine
end

