-- ==== Sys2Proof/Laws/PerInstr.lean ====
section
/-! SUPPORT. The statements made per command. FramesComplete: the bytes that a request command puts on its port complete
that request exactly at the last of them (R166, R167, R193). -/

namespace Sys2Proof.Laws

/-- The arguments that a frame carries, if the command carries its beginning. -/
def carried {α : Type} : Frame α → Option α
  | .whole a _ => some a
  | .receive a => some a
  | .reply _ => none
  | .finish => none

/-- The request that a command sends, and the bytes of its code and arguments (R193); none for a command that begins no
request's frame. -/
def requestBytes : Instr → Option (Request × List Byte)
  | .openPass _ f => (carried f).map (fun a => (.openPass, Request.code .openPass :: a.toBytes))
  | .closePass _ f => (carried f).map (fun a => (.closePass, Request.code .closePass :: noArgs a))
  | .abort _ f => (carried f).map (fun a => (.abort, Request.code .abort :: noArgs a))
  | .splice _ f => (carried f).map (fun a => (.splice, Request.code .splice :: bytes5 a))
  | .lput _ f => (carried f).map (fun a => (.lput, Request.code .lput :: a.toBytes))
  | .learn _ f => (carried f).map (fun a => (.learn, Request.code .learn :: a.toBytes))
  | .lget _ f => (carried f).map (fun a => (.lget, Request.code .lget :: a.toBytes))
  | .hold _ f => (carried f).map (fun a => (.hold, Request.code .hold :: byteArg a))
  | .rls _ f => (carried f).map (fun a => (.rls, Request.code .rls :: bytes4 a))
  | .cdec _ f => (carried f).map (fun a => (.cdec, Request.code .cdec :: a.toBytes))
  | .dnext _ f => (carried f).map (fun a => (.dnext, Request.code .dnext :: byteArg a))
  | .dack _ f => (carried f).map (fun a => (.dack, Request.code .dack :: bytes4 a))
  | .grant _ f => (carried f).map (fun a => (.grant, Request.code .grant :: a.toBytes))
  | .rstp _ f => (carried f).map (fun a => (.rstp, Request.code .rstp :: noArgs a))
  | .rights _ f => (carried f).map (fun a => (.rights, Request.code .rights :: noArgs a))
  | .cseek _ f => (carried f).map (fun a => (.cseek, Request.code .cseek :: a.toBytes))
  | .cwalk _ f => (carried f).map (fun a => (.cwalk, Request.code .cwalk :: noArgs a))
  | .events _ f => (carried f).map (fun a => (.events, Request.code .events :: noArgs a))
  | .evclr _ f => (carried f).map (fun a => (.evclr, Request.code .evclr :: bytes2 a))
  | .evmask _ f => (carried f).map (fun a => (.evmask, Request.code .evmask :: bytes2 a))
  | .stat _ f => (carried f).map (fun a => (.stat, Request.code .stat :: noArgs a))
  | .caps _ f => (carried f).map (fun a => (.caps, Request.code .caps :: byteArg a))
  | .probe _ f => (carried f).map (fun a => (.probe, Request.code .probe :: a.toBytes))
  | .unknownCode _ _ => none
  | .short _ _ => none
  | .pinReset _ => none
  | .transfer _ _ => none
  | .headTaken => none
  | .dataTaken => none
  | .markTaken => none
  | .endTaken => none
  | .runOutEnd => none
  | .trackerTimeout _ => none
  | .liveRenderTake _ => none
  | .reRenderTake _ => none
  | .clickListing _ => none
  | .voidListing _ => none
  | .liveRenderComplete _ _ => none
  | .reRenderComplete _ _ => none
  | .selectPulse _ => none

/-- A request's bytes complete it, and no shorter run of them completes any frame. -/
def completesAtLast (r : Request) (bs : List Byte) : Prop :=
  classify bs = .complete r ∧ ∀ k, k < bs.length → classify (bs.take k) = .incomplete

theorem ofCode_code (r : Request) : Request.ofCode r.code = some r := by cases r <;> decide

theorem completesAtLast_of_length {r : Request} {args : List Byte} (h : args.length = r.argCount) :
    completesAtLast r (r.code :: args) := by
  refine ⟨?_, fun k hk => ?_⟩
  · simp [classify, ofCode_code, h]
  · cases k with
    | zero => rfl
    | succ k =>
      have hk2 : k < r.argCount := by simpa [h] using hk
      have hlen : (args.take k).length < r.argCount := by
        rw [List.length_take]
        omega
      simp only [List.take_succ_cons, classify, ofCode_code, if_pos hlen]

theorem completesAtLast_carried {α : Type} {r : Request} {enc : α → List Byte} (h : ∀ a, (enc a).length = r.argCount)
    (f : Frame α) : ∀ x ∈ (carried f).map (fun a => (r, r.code :: enc a)), completesAtLast x.1 x.2 := by
  intro x hx
  obtain ⟨a, -, rfl⟩ := Option.mem_map.mp hx
  exact completesAtLast_of_length (h a)

/-- The bytes that a command puts on its port complete its request exactly at the last of them. -/
def FramesComplete.Statement (i : Instr) : Prop := ∀ x ∈ requestBytes i, completesAtLast x.1 x.2

theorem FramesComplete.openPass (p : Port) (f : Frame OpenArgs) : FramesComplete.Statement (.openPass p f) :=
  completesAtLast_carried (fun _ => rfl) f

theorem FramesComplete.closePass (p : Port) (f : Frame Unit) : FramesComplete.Statement (.closePass p f) :=
  completesAtLast_carried (fun _ => rfl) f

theorem FramesComplete.abort (p : Port) (f : Frame Unit) : FramesComplete.Statement (.abort p f) :=
  completesAtLast_carried (fun _ => rfl) f

theorem FramesComplete.splice (p : Port) (f : Frame Position) : FramesComplete.Statement (.splice p f) :=
  completesAtLast_carried (fun _ => rfl) f

theorem FramesComplete.lput (p : Port) (f : Frame LputArgs) : FramesComplete.Statement (.lput p f) :=
  completesAtLast_carried (fun _ => rfl) f

theorem FramesComplete.learn (p : Port) (f : Frame LearnArgs) : FramesComplete.Statement (.learn p f) :=
  completesAtLast_carried (fun _ => rfl) f

theorem FramesComplete.lget (p : Port) (f : Frame LgetArgs) : FramesComplete.Statement (.lget p f) :=
  completesAtLast_carried (fun _ => rfl) f

theorem FramesComplete.hold (p : Port) (f : Frame Byte) : FramesComplete.Statement (.hold p f) :=
  completesAtLast_carried (fun _ => rfl) f

theorem FramesComplete.rls (p : Port) (f : Frame Word32) : FramesComplete.Statement (.rls p f) :=
  completesAtLast_carried (fun _ => rfl) f

theorem FramesComplete.cdec (p : Port) (f : Frame CdecArgs) : FramesComplete.Statement (.cdec p f) :=
  completesAtLast_carried (fun _ => rfl) f

theorem FramesComplete.dnext (p : Port) (f : Frame Byte) : FramesComplete.Statement (.dnext p f) :=
  completesAtLast_carried (fun _ => rfl) f

theorem FramesComplete.dack (p : Port) (f : Frame Word32) : FramesComplete.Statement (.dack p f) :=
  completesAtLast_carried (fun _ => rfl) f

theorem FramesComplete.grant (p : Port) (f : Frame GrantArgs) : FramesComplete.Statement (.grant p f) :=
  completesAtLast_carried (fun _ => rfl) f

theorem FramesComplete.rstp (p : Port) (f : Frame Unit) : FramesComplete.Statement (.rstp p f) :=
  completesAtLast_carried (fun _ => rfl) f

theorem FramesComplete.rights (p : Port) (f : Frame Unit) : FramesComplete.Statement (.rights p f) :=
  completesAtLast_carried (fun _ => rfl) f

theorem FramesComplete.cseek (p : Port) (f : Frame CseekArgs) : FramesComplete.Statement (.cseek p f) :=
  completesAtLast_carried (fun _ => rfl) f

theorem FramesComplete.cwalk (p : Port) (f : Frame Unit) : FramesComplete.Statement (.cwalk p f) :=
  completesAtLast_carried (fun _ => rfl) f

theorem FramesComplete.events (p : Port) (f : Frame Unit) : FramesComplete.Statement (.events p f) :=
  completesAtLast_carried (fun _ => rfl) f

theorem FramesComplete.evclr (p : Port) (f : Frame (BitVec 16)) : FramesComplete.Statement (.evclr p f) :=
  completesAtLast_carried (fun _ => rfl) f

theorem FramesComplete.evmask (p : Port) (f : Frame (BitVec 16)) : FramesComplete.Statement (.evmask p f) :=
  completesAtLast_carried (fun _ => rfl) f

theorem FramesComplete.stat (p : Port) (f : Frame Unit) : FramesComplete.Statement (.stat p f) :=
  completesAtLast_carried (fun _ => rfl) f

theorem FramesComplete.caps (p : Port) (f : Frame Byte) : FramesComplete.Statement (.caps p f) :=
  completesAtLast_carried (fun _ => rfl) f

theorem FramesComplete.probe (p : Port) (f : Frame ProbeArgs) : FramesComplete.Statement (.probe p f) :=
  completesAtLast_carried (fun _ => rfl) f

theorem FramesComplete.unknownCode (p : Port) (f : Frame Byte) : FramesComplete.Statement (.unknownCode p f) := by
  intro x hx
  cases hx

theorem FramesComplete.short (p : Port) (f : Frame ShortArgs) : FramesComplete.Statement (.short p f) := by
  intro x hx
  cases hx

theorem FramesComplete.pinReset (chief : BitVec 2) : FramesComplete.Statement (.pinReset chief) := by
  intro x hx
  cases hx

theorem FramesComplete.transfer (tag : Tag) (word : Word32) : FramesComplete.Statement (.transfer tag word) := by
  intro x hx
  cases hx

theorem FramesComplete.headTaken : FramesComplete.Statement .headTaken := by
  intro x hx
  cases hx

theorem FramesComplete.dataTaken : FramesComplete.Statement .dataTaken := by
  intro x hx
  cases hx

theorem FramesComplete.markTaken : FramesComplete.Statement .markTaken := by
  intro x hx
  cases hx

theorem FramesComplete.endTaken : FramesComplete.Statement .endTaken := by
  intro x hx
  cases hx

theorem FramesComplete.runOutEnd : FramesComplete.Statement .runOutEnd := by
  intro x hx
  cases hx

theorem FramesComplete.trackerTimeout (q : Position) : FramesComplete.Statement (.trackerTimeout q) := by
  intro x hx
  cases hx

theorem FramesComplete.liveRenderTake (l : Lane) : FramesComplete.Statement (.liveRenderTake l) := by
  intro x hx
  cases hx

theorem FramesComplete.reRenderTake (l : Lane) : FramesComplete.Statement (.reRenderTake l) := by
  intro x hx
  cases hx

theorem FramesComplete.clickListing (l : Lane) : FramesComplete.Statement (.clickListing l) := by
  intro x hx
  cases hx

theorem FramesComplete.voidListing (l : Lane) : FramesComplete.Statement (.voidListing l) := by
  intro x hx
  cases hx

theorem FramesComplete.liveRenderComplete (l : Lane) (w : Progress) : FramesComplete.Statement (.liveRenderComplete l w) := by
  intro x hx
  cases hx

theorem FramesComplete.reRenderComplete (l : Lane) (w : Progress) : FramesComplete.Statement (.reRenderComplete l w) := by
  intro x hx
  cases hx

theorem FramesComplete.selectPulse (p : Port) : FramesComplete.Statement (.selectPulse p) := by
  intro x hx
  cases hx

end Sys2Proof.Laws
end

