-- ==== Sys2Proof/Tests/Slice0.lean ====
section
/-! SUPPORT. Small tests: ill-formed commands that WellFormed refuses, the request codes and argument bytes of R193 written
out, one or two steps of each command with what the manual's rules and worked examples give, and for each statement with
hypotheses a state and operands that meet all of them. -/

namespace Sys2Proof.Tests

open Sys2Proof Sys2Proof.Machine

/-! ## Helpers -/

/-- The state that a command answers. -/
def ran (c : Instr) (s : State) : State :=
  match exec c s with
  | .next t => t
  | .fault _ => s
  | .refused _ => s

/-- The last result of port 0. -/
def result0 (s : State) : Result := s.ports.port0.lastResult

/-- A pass RUNNING on lanes 0 and 1 with 16-bit HIGH-FIRST samples from position 0. -/
def opened : State :=
  { State.reset with
    pass := { PassControl.reset with state := .running, laneMask := 3#4, width := .w16 }
    scan := { ScanInput.reset with ready := true } }

/-- A lane record in a render state. -/
def recordIn (r : RenderState) : LaneRecord := { LaneRecord.fresh with render := r }

/-- Block k in slot k on lanes 0 and 1, begun UNLOCKED. -/
def blk (k fill : Nat) (x : BlockState) (r0 r1 : RenderState) : Block :=
  { slot := k, number := k, first := BitVec.ofNat 40 (2048 * k), fill := fill, state := x
    filmGap := false, filmSlip := false, filmLink := false, start := ⟨.unlocked, none⟩, events := []
    lanes := ⟨some (recordIn r0), some (recordIn r1), none, none⟩ }

/-- A running pass with blocks in the window and the next position behind them. -/
def withBlocks (bs : List Block) (next : Position) : State :=
  { opened with
    window := { Window.reset with blocks := bs, counter := bs.length }
    scan := { opened.scan with next := next } }

/-- Block 0 FILLING with five positions. -/
def filling : State := withBlocks [blk 0 5 .filling .pending .pending] 5#40

/-- Block 0 full for its first render and block 1 FILLING. -/
def firstFull (r0 r1 : RenderState) : State :=
  withBlocks [blk 0 2048 .full r0 r1, blk 1 5 .filling .pending .pending] 2053#40

/-- The pass in another state. -/
def inPassState (x : PassState) (s : State) : State := { s with pass := { s.pass with state := x } }

/-- One entry in the scan FIFO. -/
def withEntry (t : Tag) (w : Word32) (s : State) : State := s.setScan { s.scan with fifo := [⟨t, w, false⟩] }

/-- A header held. -/
def withHeader (a : Word32) (s : State) : State := s.setScan { s.scan with packet := .header, heldWord := some a }

/-- An open packet of four positions from position 5, with no position assembled. -/
def packet : PacketContext :=
  { first := 5#40, count := 4, wordsNeeded := 4, wordsReceived := 0, partialBits := [], lanesWritten := 0 }

/-- That packet open on block 0. -/
def inPacket : State := filling.setScan { filling.scan with packet := .opened, context := some packet }

/-- A last mark for the tracker. -/
def withMark (p : Position) (s : State) : State := s.setTracker { s.tracker with lastMark := some p }

/-- The tracker LOCKED with an S8, its history and valid run given. -/
def locked (history : List Nat) (rejects : Nat) (s : State) : State :=
  s.setTracker
    { s.tracker with
      point := ⟨.locked, some 8000⟩, history := history, validRun := history.length, rejectRun := rejects }

/-- A CLICK entry on lane 0. -/
def clickAt (n : Nat) (start : Position) (span : Nat) : Entry :=
  { number := n, kind := .click, lane := some .lane0, start := start, span := some span, peak := some 900
    decision := some .repair, decidedBy := .default, reported := none, fixed := false }

/-- A GAP entry. -/
def gapAt (n : Nat) (start : Position) (span : Nat) : Entry :=
  { clickAt n start span with kind := .gap, lane := none, peak := none }

/-- A SLIP entry. -/
def slipAt (n : Nat) (start : Position) : Entry :=
  { clickAt n start 0 with
    kind := .slip, lane := none, peak := none, span := none, decision := none, reported := some ⟨0#32, 9#32⟩ }

/-- Catalogue entries, with port 0's cursor on the first of them. -/
def withEntries (es : List Entry) (s : State) : State :=
  { s with
    catalogue :=
      { entries := es, counter := es.length + 1
        cursors := ⟨⟨es.head?.map (fun e => e.number), .forward⟩, Cursor.atEnd, Cursor.atEnd⟩ } }

/-- A render in flight at a stage, with the default settings. -/
def flight (x : WorkStage) : Flight :=
  { settings := LaneSettings.defaults, stage := x, anchors := [], hum := none, hiss := none }

/-- The hum state of a block begun UNLOCKED, and the hiss state of a lane with no floor. -/
def hum0 : HumState :=
  { phaseA := 0#32, phaseB := 0#32, inc := none, slots := List.replicate 12 ⟨0#32, 0#32⟩, point := ⟨.unlocked, none⟩ }

/-- A hiss state with threshold 0. -/
def hiss0 : HissState := { lp := 0#24, env := 0#25, threshold := 0, learnFlag := false }

/-- A render whose hum and hiss stages have begun. -/
def sounding (x : WorkStage) : Flight := { flight x with hum := some hum0, hiss := some hiss0 }

/-- Lane 0 at work. -/
def working (w : Work) (s : State) : State := s.setWork .lane0 w

/-- The detector of lane 0 in a state at a next position. -/
def detecting (x : Detecting) (next : Position) (s : State) : State :=
  s.mapDetector .lane0 (fun d => { d with state := x, next := next })

/-- A last block of three positions, CLOSING, the run-out ended. -/
def lastBlock (x : BlockState) (r0 r1 : RenderState) : State :=
  let s := withBlocks [blk 0 3 x r0 r1] 3#40
  { s with
    pass := { s.pass with state := .closing, runOutEnded := true }
    window := { s.window with finalBlock := some 0 } }

/-- A window without a FREE slot: block 0 RELEASED, 63 blocks FULL, no block FILLING. -/
def noSlot : State :=
  withBlocks (blk 0 2048 .released .done .done :: (List.range 63).map (fun k => blk (k + 1) 2048 .full .pending .pending))
    (BitVec.ofNat 40 131072)

/-- The catalogue filled to n entries, all GAPs far behind the blocks. -/
def withFull (n : Nat) (s : State) : State := s.setEntries (List.replicate n (gapAt 1 0x1000000000#40 1))

/-- A port that has received a request. -/
def received (bytes : List Byte) (s : State) : State := s.mapPort .port0 (fun q => q.startFrame .replying bytes none)

/-- An entry with a decision. -/
def decided (e : Entry) (d : Decision) : Entry := { e with decision := some d }

/-- A drain read of selector 3 on port 0, j pulses into its reply. -/
def draining (d : DrainRead) (j : Nat) (s : State) : State :=
  s.mapPort .port0 (fun q =>
    { q.startFrame .replying (Request.dnext.code :: byteArg 3#8) none with
      verdict := .done, drain := some d, pulses := j })

/-- A window of 64 blocks, the last of them FILLING with 2047 positions: one more fits, and no slot is FREE. -/
def brimming : State :=
  withBlocks ((List.range 63).map (fun k => blk k 2048 .full .pending .pending) ++ [blk 63 2047 .filling .pending .pending])
    (BitVec.ofNat 40 131071)

/-- Block 0 FILLING with 2047 positions: one more fits, and slot 1 is FREE. -/
def brink : State := withBlocks [blk 0 2047 .filling .pending .pending] 2047#40

/-- A packet of four positions open at the next position, with a lane written and partial bits left. -/
def openAt (lanes : Nat) (bits : List Bool) (s : State) : State :=
  s.setScan
    { s.scan with
      packet := .opened, context := some { packet with first := s.scan.next, lanesWritten := lanes, partialBits := bits } }

/-- A stall at an entry, with void positions pending. -/
def stalledAt (e : FifoEntry) (bits pending : Nat) (s : State) : State :=
  s.setScan { s.scan with stall := ⟨true, true⟩, suspended := some ⟨e, bits⟩, pendingFill := pending }

/-- Detection under way on lane 0 of block 0. -/
def listening (x : Detecting) (next : Position) : State :=
  detecting x next (working (.live 0 (flight .detect)) (firstFull .working .pending))

/-- Detection under way on the last block, of three positions. -/
def listeningLast (x : Detecting) (next : Position) : State :=
  detecting x next (working (.live 0 (flight .detect)) (lastBlock .full .working .pending))

/-- The original value of lane 0 at an offset of block 0. -/
def sampled (o : Nat) (v : Sample) (s : State) : State :=
  writeSample s (blk 0 2048 .full .working .pending) .original .lane0 o v

/-! ## WellFormed -/

/-- A SHORT frame may not hold a whole request: STAT has no arguments. -/
theorem test_short_with_whole_request_refused : (Instr.short .port0 (.receive ⟨[0x70#8], none⟩)).wellFormed = false := by
  decide

/-- A SHORT frame carries a clock pulse. -/
theorem test_short_without_pulse_refused : (Instr.short .port0 (.receive ⟨[], none⟩)).wellFormed = false := by decide

/-- An UNKNOWN frame's code names no request. -/
theorem test_unknown_with_known_code_refused : (Instr.unknownCode .port0 (.receive 0x01#8)).wellFormed = false := by
  decide

/-- The other commands are well formed. -/
theorem test_short_odd_nibble_accepted :
    (Instr.short .port0 (.receive ⟨[0x10#8, 0#8], some 3#4⟩)).wellFormed = true := by decide

/-! ## Words of frames (R193) -/

/-- OPEN: lane mask 3, width 16 LOW-FIRST (byte 30), start 0x0102030405, limits 0x0200 and 0x0640, splice span 24. -/
theorem test_open_bytes :
    OpenArgs.ofBytes [0x03#8, 0x30#8, 0x01#8, 0x02#8, 0x03#8, 0x04#8, 0x05#8, 0x02#8, 0x00#8, 0x06#8, 0x40#8, 0x18#8] =
      some ⟨0x03#8, 0x30#8, 0x0102030405#40, 0x0200#16, 0x0640#16, 0x18#8⟩ := by decide

/-- CSEEK: mode NUMBER, BACKWARD, entry 0x0102, position 7. -/
theorem test_cseek_bytes :
    CseekArgs.ofBytes [0x02#8, 0x01#8, 0x01#8, 0x02#8, 0x00#8, 0x00#8, 0x00#8, 0x00#8, 0x07#8] =
      some ⟨2#8, 1#8, 0x0102#16, 7#40⟩ := by decide

/-- Codes 0x22, 0x51 and 0x72 are CDEC, CWALK and PROBE; 0x05 is none. -/
theorem test_request_codes :
    Request.ofCode 0x22#8 = some .cdec ∧ Request.ofCode 0x51#8 = some .cwalk ∧ Request.ofCode 0x72#8 = some .probe ∧
      Request.ofCode 0x05#8 = none := by decide

/-- Width 16, HIGH-FIRST: bytes 3 2 1 0 of the word (R11). -/
theorem test_stream_order :
    (streamBits .highFirst 0x80000001#32).head? = some true ∧ (streamBits .lowFirst 0x80000001#32).head? = some false := by
  decide

/-! ## The requests -/

/-- OPEN with perf_min 127 is clamped to 128 (R152). -/
theorem test_open_clamps :
    let t := ran (.openPass .port0 (.whole ⟨3#8, 16#8, 9#40, 127#16, 2000#16, 24#8⟩ 0)) State.reset
    result0 t = .clamped ∧ t.pass.perfMin = 128 ∧ t.pass.state = .running ∧ t.scan.ready = true := by decide

/-- OPEN of width 13 is refused (R152). -/
theorem test_open_bad_width :
    result0 (ran (.openPass .port0 (.whole ⟨3#8, 13#8, 9#40, 512#16, 2000#16, 24#8⟩ 0)) State.reset) = .arg := by decide

/-- CLOSE in RUNNING (R154). -/
theorem test_close : (ran (.closePass .port0 (.whole () 0)) opened).pass.state = .closing := by decide

/-- CLOSE in IDLE is refused for the pass state (R174). -/
theorem test_close_idle : result0 (ran (.closePass .port0 (.whole () 0)) State.reset) = .state := by decide

/-- ABORT empties the window (R157). -/
theorem test_abort :
    let t := ran (.abort .port0 (.whole () 0)) filling
    t.pass.state = .idle ∧ t.window.blocks = [] ∧ t.scan.next = 5#40 := by decide

/-- SPLICE at mark 12 with span 24 lists a span from 0, REPAIR (R90, R62). -/
theorem test_splice :
    (ran (.splice .port0 (.whole 12#40 0)) filling).catalogue.entries.map (fun e => (e.start, e.span, e.decision)) =
      [(0#40, some 24, some .repair)] := by decide

/-- SPLICE behind the pass start is LATE (R159). -/
theorem test_splice_late : result0 (ran (.splice .port0 (.whole 11#40 0)) filling) = .late := by decide

/-- LPUT of P6 = 8 with P8 = 0 stores 8 (R161, R162). -/
theorem test_lput :
    (ran (.lput .port0 (.whole ⟨1#8, 6#8, 8#32⟩ 0)) State.reset).engines.lane1.settings.harmonicsA = 8 := by decide

/-- LPUT of P8 = 9: brought to 8, the rest of 12 after P6 = 4, CLAMPED (R161, R162). -/
theorem test_lput_clamps :
    let t := ran (.lput .port0 (.whole ⟨1#8, 8#8, 9#32⟩ 0)) State.reset
    t.engines.lane1.settings.harmonicsB = 8 ∧ result0 t = .clamped := by decide

/-- LEARN of 65 blocks runs for 64 (R127). -/
theorem test_learn :
    let t := ran (.learn .port0 (.whole ⟨1#8, 65#8⟩ 0)) opened
    t.engines.lane1.learn.remaining = 64 ∧ result0 t = .clamped := by decide

/-- LGET of P0: 96 in the fourth byte after the status byte (R164). -/
theorem test_lget :
    (ran (.lget .port0 (.whole ⟨0#8, 0#8⟩ 10)) State.reset).ports.port0.driven =
      [0#4, 0#4, 0#4, 0#4, 0#4, 0#4, 0#4, 0#4, 6#4, 0#4] := by decide

/-- HOLD of 49 stores 48 (R48). -/
theorem test_hold_clamps :
    let t := ran (.hold .port0 (.whole 49#8 0)) State.reset
    t.window.reviewHold = 48 ∧ result0 t = .clamped := by decide

/-- RLS releases a HELD block at or below its number (R46, R49). -/
theorem test_rls :
    (ran (.rls .port0 (.whole 0#32 0)) (withBlocks [blk 0 2048 .held .done .done] 2048#40)).window.blocks.map
      (fun b => b.state) = [.released] := by decide

/-- CDEC to PASS of a CLICK in a DONE block stales its lane alone (R73, R45). -/
theorem test_cdec :
    (ran (.cdec .port0 (.whole ⟨1#16, 2#8⟩ 0))
      (withEntries [clickAt 1 9#40 3] (withBlocks [blk 0 2048 .held .done .done] 2048#40))).window.blocks.map
        (fun b => (b.renderOf .lane0, b.renderOf .lane1)) = [(some .stale, some .done)] := by decide

/-- CDEC of a SLIP is FORCED (R72). -/
theorem test_cdec_forced :
    result0 (ran (.cdec .port0 (.whole ⟨1#16, 2#8⟩ 0)) (withEntries [slipAt 1 2#40] filling)) = .forced := by decide

/-- DNEXT of block 0: status byte 0x20, layout byte 1, selector 0 (R182, R195). -/
theorem test_dnext :
    (ran (.dnext .port0 (.whole 0#8 6)) (withBlocks [blk 0 2048 .released .done .done] 2048#40)).ports.port0.driven =
      [2#4, 0#4, 0#4, 1#4, 0#4, 0#4] := by decide

/-- DNEXT with selector 4 is refused (R182). -/
theorem test_dnext_arg : result0 (ran (.dnext .port0 (.whole 4#8 0)) State.reset) = .arg := by decide

/-- DACK of the drain head frees it with its entries and moves the cursor on (R50, R67, R69). -/
theorem test_dack :
    let t := ran (.dack .port0 (.whole 0#32 0))
      (withEntries [clickAt 1 9#40 3, clickAt 2 2050#40 3]
        (withBlocks [blk 0 2048 .released .done .done, blk 1 5 .filling .pending .pending] 2053#40))
    t.window.blocks.map (fun b => b.number) = [1] ∧ t.catalogue.entries.map (fun e => e.number) = [2] ∧
      t.catalogue.cursors.port0.target = some 2 := by decide

/-- DACK where no block is RELEASED is NOENT (R188). -/
theorem test_dack_noent : result0 (ran (.dack .port0 (.whole 0#32 0)) filling) = .noent := by decide

/-- GRANT of DRAIN to port 2 (R173). -/
theorem test_grant : (ran (.grant .port0 (.whole ⟨6#8, 2#8⟩ 0)) State.reset).rights.drain = .port2 := by decide

/-- GRANT from a port without CHIEF (R172). -/
theorem test_grant_denied :
    (ran (.grant .port1 (.whole ⟨6#8, 2#8⟩ 0)) State.reset).ports.port1.lastResult = .denied := by decide

/-- RSTP restores the defaults of a lane (R180). -/
theorem test_rstp :
    (ran (.rstp .port0 (.whole () 0)) (ran (.lput .port0 (.whole ⟨0#8, 15#8, 77#32⟩ 0)) State.reset)).engines.lane0.settings.floor
      = 0 := by decide

/-- RIGHTS after reset with CHIEF 0: port 0 owns PASS (R171). -/
theorem test_rights :
    (ran (.rights .port1 (.whole () 4)) State.reset).ports.port1.driven = [0#4, 0#4, 0#4, 0#4] := by decide

/-- CSEEK LAST takes the last entry, BACKWARD (R70). -/
theorem test_cseek :
    (ran (.cseek .port1 (.whole ⟨1#8, 1#8, 0#16, 0#40⟩ 0))
      (withEntries [clickAt 1 9#40 3, clickAt 2 2050#40 3] filling)).catalogue.cursors.port1 = ⟨some 2, .backward⟩ := by
  decide

/-- The 34th nibble of a CWALK ends the sixteenth byte of the entry: the cursor moves to the next entry (R71). -/
theorem test_cwalk :
    let s := withEntries [clickAt 1 2#40 3, clickAt 2 4#40 1] filling
    (ran (.cwalk .port0 (.reply 1))
      (s.mapPort .port0 (fun q =>
        { q.startFrame .replying [0x51#8] none with pulses := 33, walked := some (clickAt 1 2#40 3) }))).catalogue.cursors.port0.target
      = some 2 := by decide

/-- EVENTS drives the event set, bit 10 first (R177, R191). -/
theorem test_events :
    (ran (.events .port0 (.whole () 6)) (raise .passend State.reset)).ports.port0.driven =
      [0#4, 0#4, 0#4, 4#4, 0#4, 0#4] := by decide

/-- EVCLR clears the flags its mask selects (R177). -/
theorem test_evclr :
    (ran (.evclr .port0 (.whole 0x0010#16 0)) (raise .held (raise .link State.reset))).ports.port0.events = 2#11 := by
  decide

/-- EVMASK asserts attention over a flag already raised (R176, R177). -/
theorem test_evmask : (ran (.evmask .port0 (.whole 0x0010#16 0)) (raise .link State.reset)).ports.port0.attention = true := by
  decide

/-- STAT: pass state RUNNING, 63 slots FREE (R178, R196). -/
theorem test_stat :
    (ran (.stat .port0 (.whole () 6)) filling).ports.port0.driven = [2#4, 0#4, 0#4, 1#4, 3#4, 15#4] := by decide

/-- CAPS past the page reads 0xFF (R179). -/
theorem test_caps :
    (ran (.caps .port0 (.whole 31#8 6)) State.reset).ports.port0.driven = [0#4, 0#4, 0#4, 0#4, 15#4, 15#4] := by decide

/-- PROBE of CLOSE in IDLE returns STATE, and its own result is DONE (R175). -/
theorem test_probe :
    let t := ran (.probe .port0 (.whole ⟨2#8, 0#8⟩ 4)) State.reset
    t.ports.port0.driven = [0#4, 0#4, 0#4, 3#4] ∧ result0 t = .done := by decide

/-- An unknown code ends with UNKNOWN (R167). -/
theorem test_unknown : result0 (ran (.unknownCode .port0 (.whole 0x05#8 2)) State.reset) = .unknown := by decide

/-- A frame one nibble short of its arguments ends with SHORT (R168). -/
theorem test_short : result0 (ran (.short .port0 (.whole ⟨[0x20#8], some 1#4⟩ 0)) State.reset) = .short := by decide

/-- A select pulse without a clock pulse keeps the last result (R166). -/
theorem test_select_pulse :
    result0 (ran (.selectPulse .port0) (ran (.unknownCode .port0 (.whole 0x05#8 0)) State.reset)) = .unknown := by decide

/-- CHIEF value 3 names port 0 (R171). -/
theorem test_pin_reset : (ran (.pinReset 3#2) filling).rights.drain = .port0 := by decide

/-! ## The scan link -/

/-- READY falls with the 97th entry (R3). -/
theorem test_transfer_ready :
    (ran (.transfer .data 0#32)
      (opened.setScan { opened.scan with fifo := List.replicate 96 ⟨.data, 0#32, false⟩ })).scan.ready = false := by decide

/-- A transfer in IDLE is discarded (R2). -/
theorem test_transfer_idle : (ran (.transfer .head 0#32) State.reset).scan.fifo = [] := by decide

/-- Word B three positions ahead: a GAP of 3 at position 5 (R13, R14). -/
theorem test_head_gap :
    let t := ran .headTaken (withEntry .head 8#32 (withHeader 0x00040003#32 filling))
    t.catalogue.entries.map (fun e => (e.kind, e.start, e.span)) = [(.gap, 5#40, some 3)] ∧ t.scan.next = 8#40 := by decide

/-- Word B one position behind: a SLIP, and no position moves (R15). -/
theorem test_head_slip :
    let t := ran .headTaken (withEntry .head 4#32 (withHeader 0x00040003#32 filling))
    t.catalogue.entries.map (fun e => (e.kind, e.span)) = [(.slip, none)] ∧ t.scan.next = 5#40 := by decide

/-- A DATA word of two 16-bit samples (R11, R12). -/
theorem test_data :
    let t := ran .dataTaken (withEntry .data 0x1234FFFF#32 inPacket)
    t.window.memory.map (fun c => c.2) = [0x123400#24, 0xFFFF00#24] ∧ t.scan.next = 6#40 := by decide

/-- A void code becomes the void value (Conventions 3.3). -/
theorem test_data_void :
    (ran .dataTaken (withEntry .data 0x80000000#32 inPacket)).window.memory.map (fun c => c.2) = [0x800000#24] := by decide

/-- The eighth accepted interval locks the tracker with the sum of eight (R26). -/
theorem test_mark_locks :
    (ran .markTaken (withEntry .mark 0#32 (withMark (5#40 - 1000#40)
      (inPacket.setTracker { inPacket.tracker with history := List.replicate 7 1000, validRun := 7 })))).tracker.point =
      ⟨.locked, some 8000⟩ := by decide

/-- A mark at offset 5 of a packet of 4 is a link fault (R8). -/
theorem test_mark_beyond :
    (ran .markTaken (withEntry .mark 5#32 inPacket)).ports.port0.events = 0x10#11 := by decide

/-- END with four positions missing fills them with void and raises LINK (R9, R10). -/
theorem test_end_fills :
    let t := ran .endTaken (withEntry .close 0#32 inPacket)
    t.scan.next = 9#40 ∧ t.window.memory.length = 8 ∧ t.scan.packet = .none ∧ t.ports.port0.events = 0x10#11 := by decide

/-- The run-out of a pass that wrote nothing ends in IDLE with PASSEND (R20, R155, R156). -/
theorem test_run_out_empty :
    let t := ran .runOutEnd (inPassState .closing opened)
    t.pass.state = .idle ∧ t.ports.port0.events = 0x400#11 := by decide

/-- The FILLING block becomes FULL with its fill count and is the final block (R39, R155). -/
theorem test_run_out_partial :
    let t := ran .runOutEnd (inPassState .closing filling)
    t.window.blocks.map (fun b => (b.state, b.fill)) = [(.full, 5)] ∧ t.window.finalBlock = some 0 := by decide

/-- More than 2 x perf_max past the last mark a LOCKED tracker enters HOLDOVER with S8 kept (R28). -/
theorem test_timeout :
    (ran (.trackerTimeout 4#40) (withMark (4#40 - 131071#40) (locked [] 0 filling))).tracker.point =
      ⟨.holdover, some 8000⟩ := by decide

/-- At exactly 2 x perf_max it stays LOCKED (R28). -/
theorem test_timeout_limit :
    (ran (.trackerTimeout 4#40) (withMark (4#40 - 131070#40) (locked [] 0 filling))).tracker.point.lock = .locked := by
  decide

/-! ## The lane engines -/

/-- No live render of block 0 before block 1 is full (R40). -/
theorem test_live_take_waits : workOf (ran (.liveRenderTake .lane0) (firstFull .pending .pending)) .lane0 = .none := by
  decide

/-- Block 0 is taken once block 1 is FULL (R40, R41). -/
theorem test_live_take :
    workOf (ran (.liveRenderTake .lane0)
      (withBlocks [blk 0 2048 .full .pending .pending, blk 1 2048 .full .pending .pending] 4096#40)) .lane0 =
      .live 0 (flight .detect) := by decide

/-- The lowest STALE block is taken (R134). -/
theorem test_rerender_take :
    workOf (ran (.reRenderTake .lane0)
      (withBlocks [blk 0 2048 .held .done .done, blk 1 2048 .held .stale .done] 4096#40)) .lane0 =
      .reRender 1 (flight (.mend 0)) := by decide

/-- A click from 100 last exceeded at 104 ends at 102: span 3 (R82, R88). -/
theorem test_click_listing :
    (ran (.clickListing .lane0)
      (detecting (.click 100#40 104#40 900 1) 2053#40
        (working (.live 0 (flight .detect)) (firstFull .working .pending)))).catalogue.entries.map
        (fun e => (e.start, e.span, e.peak, e.decision)) = [(100#40, some 3, some 900, some .repair)] := by decide

/-- A void run longer than maxspan 16 is held for review (R86, R88). -/
theorem test_void_listing :
    (ran (.voidListing .lane0)
      (detecting (.void 100#40 17) 2053#40
        (working (.live 0 (flight .detect)) (firstFull .working .pending)))).catalogue.entries.map
        (fun e => (e.span, e.decision)) = [(some 17, some .hold)] := by decide

/-- The last first render of the final block: HELD, RELEASED and the pass ENDED (R44, R46, R155). -/
theorem test_live_complete :
    let t := ran (.liveRenderComplete .lane0 .rest)
      (working (.live 0 (sounding .finished)) (lastBlock .full .working .done))
    t.window.blocks.map (fun b => b.state) = [.released] ∧ t.pass.state = .ended := by decide

/-- A re-render left without a STALE record raises RENDERED (R143). -/
theorem test_rerender_complete :
    (ran (.reRenderComplete .lane0 .rest)
      (working (.reRender 0 (sounding .finished)) (withBlocks [blk 0 3 .held .working .done] 3#40))).ports.port0.events
      &&& 0x100#11 = 0x100#11 := by decide

/-- A dirty record becomes STALE (R42). -/
theorem test_rerender_dirty :
    let b := blk 0 3 .held .working .done
    let c := b.mapRecord .lane0 (fun r => { r with dirty := true })
    (ran (.reRenderComplete .lane0 .rest) (working (.reRender 0 (sounding .finished)) (withBlocks [c] 3#40))).window.blocks.map
      (fun d => d.renderOf .lane0) = [some .stale] := by decide

/-- A cut drain read drives 0 and goes on counting the bytes it begins (R187). -/
theorem test_dnext_cut :
    let t := ran (.dnext .port0 (.reply 4)) (draining ⟨3, .block 0, 100, 0, true⟩ 2 State.reset)
    t.ports.port0.driven = [0#4, 0#4, 0#4, 0#4] ∧ t.ports.port0.drain = some ⟨3, .block 0, 100, 2, true⟩ := by decide

/-! ## Witnesses: a state and operands that meet the hypotheses of each statement -/

/-- A state with the queue empty. -/
theorem witness_StepRunsFrontCommandOrIdles : State.reset.pending = [] := by decide

/-- A DESELECTED port, the least code that names no request, and the shortest SHORT frame. -/
theorem witness_FramesWithoutRequestRecordTheirResult :
    State.reset.portFree .port0 ∧ Request.ofCode 0x00#8 = none ∧ Request.ofCode 0xFF#8 = none ∧
      ShortArgs.wellFormed ⟨[], some 0#4⟩ = true := by decide

/-- Port 1 owns no right after a reset with CHIEF 0: each of the twelve is refused. The outputs are judged then, and a port
that has received CLOSE is REPLYING with its code. -/
theorem witness_RefusedRequestsChangeNothing :
    State.reset.portFree .port1 ∧
      (∀ r ∈ [Request.openPass, .closePass, .abort, .splice, .lput, .learn, .hold, .rls, .cdec, .dack, .grant, .rstp],
        acceptance State.reset .port1 r 0#8 ≠ .done) ∧
      (∀ r ∈ [Request.closePass, .splice, .learn, .rls, .cdec], acceptance State.reset .port0 r 3#8 = .state) ∧
      OutputsJudged State.reset ∧
      (let s := received (Request.lput.code :: (⟨3#8, 15#8, 7#32⟩ : LputArgs).toBytes) filling
       (s.ports.get .port0).frame = .replying ∧
         (s.ports.get .port0).received = Request.lput.code :: (⟨3#8, 15#8, 7#32⟩ : LputArgs).toBytes) := by decide

/-- A command of each kind that the statement names; and a DESELECTED port with the outputs judged. -/
theorem witness_ReadsChangeOnlyTheirPort :
    (∃ f, (Instr.stat .port0 (.whole () 100)) = .stat .port0 f) ∧ State.reset.portFree .port0 ∧ OutputsJudged State.reset :=
  ⟨⟨_, rfl⟩, by decide, by decide⟩

/-- The owner of CHIEF and another port; codes at the ends of their ranges. -/
theorem witness_GrantMovesOneRight :
    State.reset.portFree .port0 ∧ State.reset.portFree .port1 ∧ State.reset.rights.owner .chief ≠ .port1 ∧
      State.reset.rights.owner .chief = .port0 ∧ 7 < (8#8).toNat ∧ 2 < (3#8).toNat ∧
      Resource.all[(7#8).toNat]? = some .chief ∧ Resource.all[(0#8).toNat]? = some .pass ∧
      Port.all[(2#8).toNat]? = some .port2 := by decide

/-- A port that owns CHIEF. -/
theorem witness_RstpRestoresDefaults : filling.portFree .port0 ∧ filling.rights.chief = .port0 := by decide

/-- A port that owns REVIEW; hold values at and past the limit. -/
theorem witness_HoldSetsReviewHold :
    filling.portFree .port0 ∧ filling.rights.review = .port0 ∧ (48#8).toNat ≤ 48 ∧ ¬(49#8).toNat ≤ 48 := by decide

/-- A port that owns REVIEW, in RUNNING. -/
theorem witness_RlsRaisesReleaseMark :
    filling.portFree .port0 ∧ filling.rights.review = .port0 ∧ filling.pass.state = .running := by decide

/-- A legal window with a HELD block whose records are DONE, which a release mark waives; and a CLOSING pass, its run-out
ended, whose last block is released. -/
theorem witness_ReleaseRuleReleasesWhatItMay :
    let s := withBlocks [blk 0 2048 .held .done .done, blk 1 2048 .held .stale .done] 4096#40
    let t := lastBlock .held .done .done
    WindowLegal s ∧ WindowLegal { s with window := { s.window with releaseMark := some 1 } } ∧ WindowLegal t ∧
      (releaseRule t).window.blocks.map (fun b => b.state) = [.released] ∧ t.pass.state = .closing ∧
      t.pass.runOutEnded = true := by
  refine ⟨?_, ?_, ?_, ?_, ?_, ?_⟩ <;> decide

/-- A port that owns PASS, in RUNNING with no learn under way. -/
theorem witness_CloseMovesToClosing :
    filling.portFree .port0 ∧ filling.rights.pass = .port0 ∧ filling.pass.state = .running ∧
      filling.pass.runOutEnded = false ∧ ∀ l ∈ Lane.all, (filling.engines.get l).learn.state = .idle := by decide

/-- A lane with an ACTIVE learn that has counted a position. -/
theorem witness_CloseMovesToClosing_learn :
    let s := filling.mapLearn .lane0 (fun _ => ⟨.active, 2, 10, 3, none⟩)
    ∃ l, (s.engines.get l).learn.state = .active ∧ (s.engines.get l).learn.counted = none ∧
      (s.engines.get l).learn.count ≠ 0 := ⟨.lane0, by decide⟩

/-- A port that owns PASS, in IDLE and in RUNNING. -/
theorem witness_AbortDiscardsThePass :
    State.reset.portFree .port0 ∧ State.reset.rights.pass = .port0 ∧ State.reset.pass.state = .idle ∧
      filling.portFree .port0 ∧ filling.rights.pass = .port0 ∧ filling.pass.state ≠ .idle := by decide

/-- Arguments of OPEN at the ends of their ranges, and arguments that it refuses. -/
theorem witness_OpenChecksClampsAndSetsUp :
    State.reset.portFree .port0 ∧ State.reset.rights.pass = .port0 ∧ State.reset.pass.state = .idle ∧
      1 ≤ (15#8).toNat ∧ (15#8).toNat ≤ 15 ∧ Width.w24.bits = (24#8).toNat % 32 ∧ (24#8).toNat / 32 = 0 ∧
      Width.w12.bits = (44#8).toNat % 32 ∧ (44#8).toNat / 32 = 1 ∧
      15 < (16#8).toNat ∧ (13#8).toNat % 32 ∉ [12, 16, 20, 24] ∧ 1 < (88#8).toNat / 32 := by decide

/-- A block whose records are PENDING has no render done. -/
theorem filling_noRenderDone (s : State) : NoRenderDone s (blk 0 5 .filling .pending .pending) := by
  intro l r h
  refine .inl ?_
  cases l <;> simp_all [blk, PerLane.get, recordIn] <;> subst h <;> rfl

/-- A splice span at the horizon, and at the last position of the newest block, with room and with 1919 entries. -/
theorem witness_SpliceListsItsSpan :
    filling.portFree .port0 ∧ filling.rights.pass = .port0 ∧ filling.pass.state = .running ∧ WindowLegal filling ∧
      (∀ mark ∈ [12#40, 2059#40],
        ¬SpliceLate filling (mark - BitVec.ofNat 40 (filling.pass.spliceSpan / 2)) ∧
          ¬SpliceBeyond filling (mark - BitVec.ofNat 40 (filling.pass.spliceSpan / 2)) ∧
          ¬SpliceClash filling (mark - BitVec.ofNat 40 (filling.pass.spliceSpan / 2))) ∧
      filling.catalogue.entries.length < 2048 ∧ (withFull 1919 filling).catalogue.entries.length = 1919 := by
  refine ⟨by decide, by decide, by decide, by decide, ?_, by decide, List.length_replicate⟩
  intro mark hm
  refine ⟨?_, ?_, ?_⟩
  · rintro (⟨b, hb, -, -, h⟩ | ⟨h, -⟩)
    · obtain rfl : b = blk 0 5 .filling .pending .pending := by simpa [filling, withBlocks] using hb
      obtain rfl | rfl : mark = 12#40 ∨ mark = 2059#40 := by simpa using hm
      · exact absurd h (by decide)
      · exact absurd h (by decide)
    · exact h _ (by simp [filling, withBlocks]) (filling_noRenderDone filling)
  · rintro (h | ⟨b, ⟨hb, -⟩, h⟩)
    · exact absurd h (by decide)
    · obtain rfl : b = blk 0 5 .filling .pending .pending := by simpa [filling, withBlocks] using hb
      obtain rfl | rfl : mark = 12#40 ∨ mark = 2059#40 := by simpa using hm
      · exact absurd h (by decide)
      · exact absurd h (by decide)
  · rintro ⟨e, he, -⟩
    exact absurd he (by simp [filling, withBlocks, opened, State.reset, Catalogue.reset])

/-- A span behind the horizon, one past the newest block, and one over a CLICK. -/
theorem witness_SpliceRefusedChangesNothing :
    let s := withEntries [clickAt 1 9#40 3] filling
    let at_ := fun (mark : Position) => mark - BitVec.ofNat 40 (s.pass.spliceSpan / 2)
    (s.portFree .port0 ∧ s.rights.pass = .port0 ∧ s.pass.state = .running ∧ WindowLegal s) ∧
      SpliceLate s (at_ 11#40) ∧ (¬SpliceLate s (at_ 2060#40) ∧ SpliceBeyond s (at_ 2060#40)) ∧
      ¬SpliceLate s (at_ 12#40) ∧ ¬SpliceBeyond s (at_ 12#40) ∧ SpliceClash s (at_ 12#40) := by
  have mem : blk 0 5 .filling .pending .pending ∈ (withEntries [clickAt 1 9#40 3] filling).window.blocks := by decide
  have one : ∀ b ∈ (withEntries [clickAt 1 9#40 3] filling).window.blocks, b = blk 0 5 .filling .pending .pending := by
    decide
  have notLate : ∀ p : Position, ¬passOffset (withEntries [clickAt 1 9#40 3] filling) p < 0 →
      ¬SpliceLate (withEntries [clickAt 1 9#40 3] filling) p := by
    intro p hp
    rintro (⟨b, hb, -, -, h⟩ | ⟨h, -⟩)
    · rw [one b hb] at h
      exact hp h
    · exact h _ mem (filling_noRenderDone _)
  refine ⟨by decide, .inl ⟨_, mem, filling_noRenderDone _, ?_, by decide⟩, ⟨notLate _ (by decide), .inr ⟨_, ⟨mem, ?_⟩, by decide⟩⟩,
    notLate _ (by decide), ?_, ⟨clickAt 1 9#40 3, by decide, .inr ⟨by decide, .lane0, by decide, by decide⟩, 3, by decide⟩⟩
  · intro c hc h
    rw [one c hc] at h
    exact absurd h (by decide)
  · intro c hc
    rw [one c hc]
  · rintro (h | ⟨b, ⟨hb, -⟩, h⟩)
    · exact absurd h (by decide)
    · rw [one b hb] at h
      exact absurd h (by decide)

/-- A full catalogue, by its length. -/
theorem witness_SpliceRefusedChangesNothing_full :
    2048 ≤ (withEntries (List.replicate 2048 (gapAt 1 9#40 3)) filling).catalogue.entries.length := by
  rw [show (withEntries (List.replicate 2048 (gapAt 1 9#40 3)) filling).catalogue.entries =
    List.replicate 2048 (gapAt 1 9#40 3) from rfl, List.length_replicate]

/-- A lane and parameters at the ends of their ranges. -/
theorem witness_LputStoresBroughtIntoRange :
    State.reset.portFree .port0 ∧ Lane.all[(3#8).toNat]? = some .lane3 ∧ State.reset.rights.lanes.get .lane3 = .port0 ∧
      (0#8).toNat < 16 ∧ (15#8).toNat < 16 ∧ parameterRange (0#8).toNat = some (16, 1023) ∧
      parameterRange (15#8).toNat = some (0, 8388607) ∧
      3 < (4#8).toNat ∧ 15 < (16#8).toNat := by decide

/-- An active lane, one outside the lane set and a lane code above 3, in RUNNING. -/
theorem witness_LearnStartsALearn :
    opened.portFree .port0 ∧ Lane.all[(1#8).toNat]? = some .lane1 ∧ opened.rights.lanes.get .lane1 = .port0 ∧
      opened.pass.state = .running ∧ opened.pass.laneMask.getLsbD Lane.lane1.toNat = true ∧ (64#8 : Byte) ≠ 0#8 ∧
      opened.rights.lanes.get .lane2 = .port0 ∧ opened.pass.laneMask.getLsbD Lane.lane2.toNat = false ∧
      3 < (4#8).toNat := by decide

/-- A DESELECTED port: the hypothesis of LgetReturnsTheStoredValue, RightsAndCapsReplies, EventRequestsActOnTheirPort,
StatReturnsFortyNineBytes, ProbeReturnsTheCheckResult and CseekSetsThePortsCursor. -/
theorem witness_portFree : ∀ p ∈ Port.all, filling.portFree p := by decide

/-- A CLICK of lane 0 in a DONE block, in RUNNING and in CLOSING. -/
theorem witness_CdecChangesTheDecision :
    let b := blk 0 2048 .held .done .done
    let s := withEntries [clickAt 1 9#40 3] (withBlocks [b] 2048#40)
    s.portFree .port0 ∧ s.rights.review = .port0 ∧ s.pass.state = .running ∧
      (inPassState .closing s).pass.state = .closing ∧
      entryNumbered s (1#16).toNat = some (clickAt 1 9#40 3) ∧ (clickAt 1 9#40 3).fixed = false ∧
      decisionForced s (clickAt 1 9#40 3) .pass = false ∧ (clickAt 1 9#40 3).decision ≠ some .pass ∧
      (clickAt 1 9#40 3).decision = some .repair ∧ decisionForced s (clickAt 1 9#40 3) .repair = false ∧
      blockNumbered s (blockNumberOf s 9#40).toNat = some b ∧ b.lanes.get .lane0 = some (recordIn .done) := by decide

/-- A SPLICE whose decision changes, over a PENDING lane 0, left as it is, and a DONE lane 1, staled (R45). -/
theorem test_staleRequests_pending :
    let s := withBlocks [blk 0 2048 .full .pending .done, blk 1 2048 .full .pending .done] 4096#40
    (staleRequests [.lane0, .lane1] 0 s).window.blocks =
        [blk 0 2048 .full .pending .stale, blk 1 2048 .full .pending .stale] ∧
      (staleRequests [.lane0, .lane1] 0 s).window = staledWindow s [.lane0, .lane1] 0 := by decide

/-- A CLICK of lane 0 whose record in the block of its start is PENDING. -/
theorem witness_CdecChangesTheDecision_pending :
    let b := blk 0 5 .filling .pending .pending
    let s := withEntries [clickAt 1 2#40 3] filling
    s.portFree .port0 ∧ s.rights.review = .port0 ∧ s.pass.state = .running ∧
      entryNumbered s (1#16).toNat = some (clickAt 1 2#40 3) ∧ (clickAt 1 2#40 3).fixed = false ∧
      decisionForced s (clickAt 1 2#40 3) .pass = false ∧ (clickAt 1 2#40 3).decision ≠ some .pass ∧
      (clickAt 1 2#40 3).lane = some .lane0 ∧ blockNumbered s (blockNumberOf s 2#40).toNat = some b ∧
      b.lanes.get .lane0 = some (recordIn .pending) ∧ (recordIn .pending).render = .pending := by decide

/-- A lane-absent entry whose decision changes. -/
theorem witness_CdecChangesTheDecision_gap :
    let s := withEntries [gapAt 1 2#40 2] filling
    entryNumbered s (1#16).toNat = some (gapAt 1 2#40 2) ∧ (gapAt 1 2#40 2).fixed = false ∧
      decisionForced s (gapAt 1 2#40 2) .hold = false ∧ (gapAt 1 2#40 2).decision ≠ some .hold ∧
      (gapAt 1 2#40 2).lane = none := by decide

/-- Decision codes out of range, a number no entry has, a fixed entry, and entries that may not hold PASS. -/
theorem witness_CdecRefusedChangesNothing :
    let f := { clickAt 2 9#40 3 with fixed := true }
    let s := withEntries [slipAt 1 2#40, f, gapAt 3 20#40 2] filling
    s.portFree .port0 ∧ s.rights.review = .port0 ∧ s.pass.state = .running ∧ (0#8).toNat ∉ [1, 2, 3] ∧
      (4#8).toNat ∉ [1, 2, 3] ∧ (2#8).toNat ∈ [1, 2, 3] ∧
      (∀ e ∈ s.catalogue.entries, e.number ≠ (4#16).toNat) ∧ entryNumbered s (2#16).toNat = some f ∧ f.fixed = true ∧
      entryNumbered s (1#16).toNat = some (slipAt 1 2#40) ∧ (slipAt 1 2#40).fixed = false ∧
      (slipAt 1 2#40).kind = .slip ∧ entryNumbered s (3#16).toNat = some (gapAt 3 20#40 2) ∧
      (gapAt 3 20#40 2).fixed = false ∧ (gapAt 3 20#40 2).kind = .gap := by decide

/-- A SPLICE over a position not yet written. -/
theorem witness_CdecRefusedChangesNothing_splice :
    let e := { gapAt 1 3#40 4 with kind := .splice }
    let s := withEntries [e] filling
    entryNumbered s (1#16).toNat = some e ∧ e.fixed = false ∧ e.kind = .splice ∧ 2 < e.span.getD 0 ∧
      Lane.lane1 ∈ activeLanes s ∧ originalAt s .lane1 (e.start + BitVec.ofNat 40 2) = none := by decide

/-- A RELEASED block, and none; selectors at and past the limit; a port without DRAIN. -/
theorem witness_DnextStreamsTheHeadRecord :
    let b := blk 0 3 .released .done .done
    let s := withBlocks [b] 3#40
    s.portFree .port0 ∧ s.portFree .port1 ∧ s.rights.drain = .port0 ∧ s.rights.drain ≠ .port1 ∧ (3#8).toNat ≤ 3 ∧
      3 < (4#8).toNat ∧ drainHead s = some b ∧ blockNumbered s b.number = some b ∧ drainHead filling = none ∧
      filling.portFree .port0 ∧ filling.rights.drain = .port0 := by decide

/-- Drain reads unbound with a head and without one, bound to NONE, and bound to a block, uncut and cut; at the status byte,
at the first header byte and at the last. -/
theorem witness_DnextStreamsTheHeadRecord_parts :
    let s := withBlocks [blk 0 3 .released .done .done] 3#40
    (∀ d ∈ [(⟨3, .unchosen, 0, 0, false⟩ : DrainRead), ⟨3, .nothing, 46, 0, false⟩, ⟨3, .block 0, 100, 0, false⟩,
        ⟨3, .block 0, 100, 0, true⟩], ∀ j ∈ [1, 2, 92], ∀ v ∈ [s, filling],
      let q := (draining d j v).ports.get .port0
      q.frame = .replying ∧ q.received = Request.dnext.code :: byteArg 3#8 ∧ q.verdict = .done ∧ q.item = [] ∧
        q.drain = some d ∧ q.pulses = j) ∧
      1 + 1 ≤ 2 ∧ 2 ≤ 2 ∧ 92 % 2 = 0 ∧ drainHead s = some (blk 0 3 .released .done .done) ∧
      blockNumbered s 0 = some (blk 0 3 .released .done .done) ∧ drainHead filling = none := by
  refine ⟨?_, ?_, ?_, ?_, ?_, ?_, ?_⟩ <;> decide

/-- A RELEASED block 0 in RUNNING with a cursor on an entry of it, in ENDED as the last one, and in CLOSING with nothing,
a RELEASED or a HELD block behind it. -/
theorem witness_DackFreesTheHead :
    let b := blk 0 3 .released .done .done
    let s := withEntries [clickAt 1 0#40 3, clickAt 2 2050#40 1] (withBlocks [b] 3#40)
    let left := fun (s : State) => s.window.blocks.filter (fun c => c.number ≠ 0)
    let v := fun (x : BlockState) =>
      inPassState .closing (withBlocks [blk 0 2048 .released .done .done, blk 1 3 x .done .done] 2051#40)
    s.portFree .port0 ∧ s.rights.drain = .port0 ∧ drainHead s = some b ∧ b.number = (0#32).toNat ∧ b.number ≠ (1#32).toNat ∧
      s.scan.stall.waiting = false ∧ s.pass.state = .running ∧ (inPassState .ended s).pass.state = .ended ∧
      (∀ c ∈ s.window.blocks, c.number = (0#32).toNat) ∧ (s.catalogue.cursors.get .port0).target = some 1 ∧
      entryNumbered s 1 = some (clickAt 1 0#40 3) ∧ left (lastBlock .released .done .done) = [] ∧
      drainHead (v .released) = some (blk 0 2048 .released .done .done) ∧ left (v .released) ≠ [] ∧
      (∀ c ∈ left (v .released), c.state = .released) ∧ ∃ c ∈ left (v .held), c.state ≠ .released := by decide

/-- Every slot held, block 0 the drain head, and a stall under way at word B. -/
theorem witness_DackFreesTheHead_stall :
    let e : FifoEntry := ⟨.head, 131072#32, false⟩
    let s := (withHeader 0x04000003#32 noSlot).setScan
      { (withHeader 0x04000003#32 noSlot).scan with stall := ⟨true, true⟩, suspended := some ⟨e, 0⟩ }
    s.portFree .port0 ∧ s.rights.drain = .port0 ∧ drainHead s = some (blk 0 2048 .released .done .done) ∧
      s.pass.state = .running ∧ s.pass.runOutEnded = false ∧ s.scan.stall.waiting = true ∧
      s.scan.suspended = some ⟨e, 0⟩ ∧ s.scan.packet = .header ∧ s.scan.pendingFill = 0 ∧
      s.scan.heldWord = some 0x04000003#32 ∧ (0x04000003#32).toNat % 256 = s.pass.laneMask.toNat ∧
      (0x04000003#32).toNat / 65536 = 1024 ∧ e.word = s.scan.next.setWidth 32 ∧ fillingBlock s = none ∧
      s.window.counter < 2 ^ 28 := by decide +kernel

/-- The window of noSlot is legal and holds every slot. -/
theorem witness_noSlot : WindowLegal noSlot ∧ ∀ j, j < 64 → ∃ b ∈ noSlot.window.blocks, b.slot = j := by decide +kernel

/-- With every slot held: a stall within a gap fill of 2048 positions, within a fault fill of 1024 whose first position has a
lane written, and within a DATA word, whose last bit completes a sample. -/
theorem witness_DackFreesTheHead_fills :
    let d : FifoEntry := ⟨.data, 0x12345678#32, false⟩
    let g := stalledAt ⟨.head, 133120#32, false⟩ 0 2048 (withHeader 0x04000003#32 noSlot)
    let f := stalledAt ⟨.close, 0#32, false⟩ 0 1024 (openAt 1 [] noSlot)
    let w := stalledAt d 31 0 (openAt 1 (List.replicate 15 true) noSlot)
    (∀ s ∈ [g, f, w], s.portFree .port0 ∧ s.rights.drain = .port0 ∧
        drainHead s = some (blk 0 2048 .released .done .done) ∧ s.pass.state = .running ∧
        s.pass.runOutEnded = false ∧ s.scan.stall.waiting = true ∧ fillingBlock s = none ∧
        s.tracker.point.lock ≠ .locked) ∧
      (∀ s ∈ [g, f, w], WindowLegal s ∧ NextPositionLaw s ∧ Memory.wf s.window.memory) ∧
      (g.scan.packet = .header ∧ g.scan.heldWord = some 0x04000003#32 ∧ g.scan.context = none ∧
        g.scan.pendingFill = 2048) ∧
      (f.scan.packet = .opened ∧ f.scan.pendingFill = 1024 ∧ ∃ x, f.scan.context = some x ∧ x.lanesWritten = 1) ∧
      w.scan.suspended = some ⟨d, 31⟩ ∧
      ∃ x, w.scan.context = some x ∧ x.partialBits.length + 1 = w.pass.width.bits ∧
        x.lanesWritten < (activeLanes w).length ∧ (w.scan.next - x.first).toNat < x.count := by
  refine ⟨by decide +kernel, by decide +kernel, by decide +kernel,
    ⟨by decide +kernel, by decide +kernel, _, rfl, by decide +kernel⟩,
    by decide +kernel, _, rfl, by decide +kernel, by decide +kernel, by decide +kernel⟩

/-- ENDED with a RELEASED block behind the drain head. -/
theorem witness_DackFreesTheHead_ended :
    let s := inPassState .ended (withBlocks [blk 0 2048 .released .done .done, blk 1 3 .released .done .done] 2051#40)
    s.portFree .port0 ∧ s.rights.drain = .port0 ∧ drainHead s = some (blk 0 2048 .released .done .done) ∧
      s.scan.stall.waiting = false ∧ s.pass.state = .ended ∧
      s.window.blocks.filter (fun c => c.number ≠ (0#32).toNat) ≠ [] := by decide

/-- A cursor on the first of a run of two entries, FORWARD, with none after the second; and one at END. -/
theorem witness_CwalkStreamsTheEntryAndMoves :
    let s := withEntries [clickAt 1 2#40 3, clickAt 2 9#40 1] filling
    let run := [clickAt 1 2#40 3, clickAt 2 9#40 1]
    let after := fun (y : Entry) => s.catalogue.entries.find? (fun x => entryBefore s y x)
    s.portFree .port0 ∧ (s.catalogue.cursors.get .port0).target = some 1 ∧
      (s.catalogue.cursors.get .port0).direction = .forward ∧
      (∀ y ∈ run, entryNumbered s y.number = some y) ∧ after (clickAt 1 2#40 3) = some (clickAt 2 9#40 1) ∧
      after (clickAt 2 9#40 1) = none ∧ s.portFree .port1 ∧ (s.catalogue.cursors.get .port1).target = none := by decide

/-- A FIFO with 127 entries, one with 128, and a pass that is not RUNNING. -/
theorem witness_TransferArrivesByPassStateAndFullness :
    let g : FifoEntry := ⟨.data, 0#32, false⟩
    let s := opened.setScan { opened.scan with fifo := List.replicate 127 g }
    let f := opened.setScan { opened.scan with fifo := List.replicate 127 g ++ [g] }
    s.pass.state = .running ∧ s.scan.fifo.length < 128 ∧ f.scan.fifo = List.replicate 127 g ++ [g] ∧
      128 ≤ f.scan.fifo.length ∧ State.reset.pass.state ≠ .running := by decide +kernel

/-- A HEAD in NONE; in HEADER with word A of count 1024, and of count 1025. -/
theorem witness_HeadTakenHoldsChecksAndOpens :
    let e : FifoEntry := ⟨.head, 5#32, false⟩
    let s := withEntry .head 5#32 filling
    let v := withHeader 0x04000003#32 s
    s.canTake e [] ∧ v.canTake e [] ∧ e.tag = .head ∧ e.loss = false ∧ s.scan.packet = .none ∧
      v.scan.packet = .header ∧ v.scan.heldWord = some 0x04000003#32 ∧
      (0x04000003#32).toNat % 256 = v.pass.laneMask.toNat ∧ (0x04000003#32).toNat / 65536 = 1024 ∧
      ¬(0x04010003#32).toNat / 65536 ≤ 1024 ∧ (fillingBlock v).isSome = true ∧
      e.word = v.scan.next.setWidth 32 := by decide

/-- Word B with no block FILLING: with slots 1 to 63 FREE, with none FREE, and at the block limit. -/
theorem witness_HeadTakenHoldsChecksAndOpens_secure :
    let v := withEntry .head 2048#32 (withHeader 0x04000003#32 (withBlocks [blk 0 2048 .full .pending .pending] 2048#40))
    let w := withEntry .head 131072#32 (withHeader 0x04000003#32 noSlot)
    v.canTake ⟨.head, 2048#32, false⟩ [] ∧ v.scan.packet = .header ∧ fillingBlock v = none ∧
      v.window.counter < 2 ^ 28 ∧ LowestFree v 1 ∧ (2048#32 : Word32) = v.scan.next.setWidth 32 ∧
      w.canTake ⟨.head, 131072#32, false⟩ [] ∧ w.scan.packet = .header ∧ fillingBlock w = none ∧
      w.window.counter < 2 ^ 28 ∧ NoneFree w ∧
      2 ^ 28 ≤ ({ v with window := { v.window with counter := 268435456 } } : State).window.counter := by
  refine ⟨by decide, by decide, by decide, by decide, ⟨by decide, by decide, by decide⟩, by decide, by decide, by decide,
    by decide +kernel, by decide, ?_, by decide⟩
  exact witness_noSlot.2

/-- A LOCKED tracker whose last mark lies so far back that the fifth position from position 5 on is the last within the
limit: five positions bring no timeout, and six do. -/
theorem witness_noTimeout :
    NoTimeout (withMark (9#40 - 131070#40) (locked [] 0 filling)) 5 ∧
      ¬NoTimeout (withMark (9#40 - 131070#40) (locked [] 0 filling)) 6 := by
  refine ⟨?_, fun h => ?_⟩
  · intro _ r hr i hi
    obtain rfl : r = 9#40 - 131070#40 := (Option.mem_some.mp hr).symm
    revert i
    decide
  · exact absurd (h rfl _ rfl 5 (by decide)) (by decide)

/-- A GAP of 2042 positions, the longest that leaves block 0 FILLING, and one of 2043, which fills it; UNLOCKED, and LOCKED
with the mark as in witness_noTimeout. -/
theorem witness_GapInsertsVoidPositions :
    let e : FifoEntry := ⟨.head, 2047#32, false⟩
    let s := withEntry .head 2047#32 (withHeader 0x00040003#32 filling)
    s.canTake e [] ∧ e.tag = .head ∧ e.loss = false ∧ s.scan.packet = .header ∧
      s.scan.heldWord = some 0x00040003#32 ∧ s.scan.context = none ∧ headerValid s 0x00040003#32 = true ∧
      s.pass.runOutEnded = false ∧ WindowLegal s ∧ NextPositionLaw s ∧ Memory.wf s.window.memory ∧
      BlockReady s s (blk 0 5 .filling .pending .pending) ∧ 1 ≤ 2042 ∧ 5 + 2043 ≤ 2048 ∧
      e.word = s.scan.next.setWidth 32 + BitVec.ofNat 32 2042 ∧ s.catalogue.entries.length < 2048 ∧
      NoTimeout s 2042 := by
  refine ⟨?_, ?_, ?_, ?_, ?_, ?_, ?_, ?_, ?_, ?_, ?_, .inl ⟨?_, rfl⟩, ?_, ?_, ?_, ?_, fun h => absurd h ?_⟩ <;> decide

/-- A GAP of one position with no block FILLING, slot 1 being the lowest FREE one; and a GAP of 2 over the end of block 0 into
slot 1. -/
theorem witness_GapInsertsVoidPositions_cross :
    let v := withEntry .head 2049#32 (withHeader 0x00040003#32 (withBlocks [blk 0 2048 .full .pending .pending] 2048#40))
    let w := withEntry .head 2049#32 (withHeader 0x00040003#32 brink)
    (v.canTake ⟨.head, 2049#32, false⟩ [] ∧ WindowLegal v ∧ NextPositionLaw v ∧
        BlockReady v (v.slotTaken 1) (newBlock v 1) ∧ (newBlock v 1).fill + 1 ≤ 2048 ∧
        (2049#32 : Word32) = v.scan.next.setWidth 32 + BitVec.ofNat 32 1) ∧
      w.canTake ⟨.head, 2049#32, false⟩ [] ∧ WindowLegal w ∧ NextPositionLaw w ∧
      BlockReady w w (blk 0 2047 .filling .pending .pending) ∧ 2048 < 2047 + 2 ∧ w.window.counter < 2 ^ 28 ∧
      LowestFree w 1 ∧ (2049#32 : Word32) = w.scan.next.setWidth 32 + BitVec.ofNat 32 2 := by
  refine ⟨⟨?_, ?_, ?_, .inr ⟨1, ?_, ?_, ⟨?_, ?_, ?_⟩, rfl, rfl⟩, ?_, ?_⟩, ?_, ?_, ?_, .inl ⟨?_, rfl⟩, ?_, ?_,
    ⟨?_, ?_, ?_⟩, ?_⟩ <;> decide

/-- The window of brimming is legal and holds every slot. -/
theorem witness_brimming : WindowLegal brimming ∧ ∀ j, j < 64 → ∃ b ∈ brimming.window.blocks, b.slot = j := by
  decide +kernel

/-- In that window a GAP of 2 stalls after its first position. -/
theorem witness_GapInsertsVoidPositions_stall :
    let s := withEntry .head 131073#32 (withHeader 0x00040003#32 brimming)
    s.canTake ⟨.head, 131073#32, false⟩ [] ∧ WindowLegal s ∧ NextPositionLaw s ∧
      BlockReady s s (blk 63 2047 .filling .pending .pending) ∧ 2048 < 2047 + 2 ∧
      (131073#32 : Word32) = s.scan.next.setWidth 32 + BitVec.ofNat 32 2 ∧ s.window.counter < 2 ^ 28 ∧ NoneFree s := by
  refine ⟨?_, witness_brimming.1, ?_, .inl ⟨?_, rfl⟩, ?_, ?_, ?_, witness_brimming.2⟩ <;> decide +kernel

/-- A catalogue with 2048 entries, and with 1919. -/
theorem witness_fullCatalogue (s : State) :
    2048 ≤ (withFull 2048 s).catalogue.entries.length ∧ (withFull 1919 s).catalogue.entries.length = 1919 :=
  ⟨List.length_replicate.ge, List.length_replicate⟩

/-- Word B one position behind, and 2049 positions ahead; with block 0 FILLING, and with none FILLING and slot 1 FREE. -/
theorem witness_SlipKeepsNumbering :
    let s := withEntry .head 4#32 (withHeader 0x00040003#32 filling)
    let v := withEntry .head 4#32 (withHeader 0x00040003#32 (withBlocks [blk 0 2048 .full .pending .pending] 2048#40))
    s.canTake ⟨.head, 4#32, false⟩ [] ∧ s.scan.packet = .header ∧ s.scan.heldWord = some 0x00040003#32 ∧
      headerValid s 0x00040003#32 = true ∧ BlockReady s s (blk 0 5 .filling .pending .pending) ∧
      s.catalogue.entries.length < 2048 ∧ (4#32 - s.scan.next.setWidth 32).toInt = -1 ∧
      (2054#32 - s.scan.next.setWidth 32).toInt = 2049 ∧ v.canTake ⟨.head, 4#32, false⟩ [] ∧
      headerValid v 0x00040003#32 = true ∧ BlockReady v (v.slotTaken 1) (newBlock v 1) ∧
      (4#32 - v.scan.next.setWidth 32).toInt < 0 := by
  refine ⟨?_, ?_, ?_, ?_, .inl ⟨?_, rfl⟩, ?_, ?_, ?_, ?_, ?_, .inr ⟨1, ?_, ?_, ⟨?_, ?_, ?_⟩, rfl, rfl⟩, ?_⟩ <;> decide

/-- DATA, MARK and END in NONE, HEADER and DISCARD; DATA in DAMAGED, and in OPEN past the words needed. -/
theorem witness_StrayEntriesAreDiscarded :
    (∀ g ∈ [Tag.data, .mark, .close], (withEntry g 0#32 filling).canTake ⟨g, 0#32, false⟩ [] ∧
      (withEntry g 0#32 filling).scan.packet = .none ∧
      (withHeader 3#32 (withEntry g 0#32 filling)).canTake ⟨g, 0#32, false⟩ [] ∧
      (withHeader 3#32 (withEntry g 0#32 filling)).scan.packet = .header ∧
      ((withEntry g 0#32 filling).setPacket .discard).canTake ⟨g, 0#32, false⟩ [] ∧
      ((withEntry g 0#32 filling).setPacket .discard).scan.packet = .discard) ∧
    ((withEntry .data 0#32 inPacket).setPacket .damaged).canTake ⟨.data, 0#32, false⟩ [] ∧
    ((withEntry .data 0#32 inPacket).setPacket .damaged).scan.packet = .damaged ∧
    (let x := { packet with wordsReceived := 4 }
     let s := (withEntry .data 0#32 inPacket).setContext (some x)
     s.canTake ⟨.data, 0#32, false⟩ [] ∧ s.scan.packet = .opened ∧ s.scan.context = some x ∧
       x.wordsNeeded ≤ x.wordsReceived) := by decide

/-- A DATA entry with a loss mark in OPEN, and after the input has ended: without the mark its word is unpacked and the
packet stays OPEN. -/
theorem witness_StrayEntriesAreDiscarded_loss :
    let s := inPacket.setScan { inPacket.scan with fifo := [⟨.data, 0x12345678#32, true⟩] }
    let v := s.setScan { s.scan with inputEnded := true }
    let t := ran .dataTaken (s.setScan { s.scan with fifo := [⟨.data, 0x12345678#32, false⟩] })
    (Tag.data, Instr.dataTaken) ∈
        [(Tag.head, Instr.headTaken), (.data, .dataTaken), (.mark, .markTaken), (.close, .endTaken)] ∧
      s.scan.fifo = [⟨.data, 0x12345678#32, true⟩] ∧ s.pass.state = .running ∧ s.scan.stall.waiting = false ∧
      s.scan.inputEnded = false ∧ v.scan.inputEnded = true ∧ t.scan.inputEnded = false ∧
      t.scan.stall.waiting = false ∧ t.scan.packet = .opened := by decide

/-- The first DATA word of a packet; and, in width 20, a word after 8 bits left over with the first lane written. -/
theorem witness_DataWordBecomesTwoSamples :
    let s := withEntry .data 0x12345678#32 inPacket
    let x := { packet with partialBits := List.replicate 8 true, lanesWritten := 1 }
    let v : State := { s.setContext (some x) with pass := { s.pass with width := .w20 } }
    (s.canTake ⟨.data, 0x12345678#32, false⟩ [] ∧ s.scan.packet = .opened ∧ s.scan.context = some packet ∧
      packet.wordsReceived < packet.wordsNeeded ∧ s.pass.runOutEnded = false ∧ WindowLegal s ∧ NextPositionLaw s ∧
      Memory.wf s.window.memory ∧ NoTimeout s 1 ∧ packet.partialBits.length < s.pass.width.bits ∧
      packet.lanesWritten < (activeLanes s).length ∧ (s.scan.next - packet.first).toNat < packet.count ∧
      BlockReady s s (blk 0 5 .filling .pending .pending)) ∧
    v.canTake ⟨.data, 0x12345678#32, false⟩ [] ∧ v.scan.context = some x ∧ WindowLegal v ∧ NextPositionLaw v ∧
      x.partialBits.length < v.pass.width.bits ∧ x.lanesWritten < (activeLanes v).length ∧
      (v.scan.next - x.first).toNat < x.count ∧ (x.partialBits.length + 32) / v.pass.width.bits = 2 := by
  refine ⟨⟨?_, ?_, ?_, ?_, ?_, ?_, ?_, ?_, fun h => absurd h ?_, ?_, ?_, ?_, .inl ⟨?_, rfl⟩⟩, ?_, ?_, ?_, ?_, ?_, ?_, ?_,
    ?_⟩ <;> decide

/-- A DATA word whose second sample lies past the end of a block, with slot 1 FREE and with no slot FREE. -/
theorem witness_DataWordBecomesTwoSamples_cross :
    let v := withEntry .data 0#32 (openAt 1 [] brink)
    let w := withEntry .data 0#32 (openAt 1 [] brimming)
    let last := 2047 + (1 + 2 - 1) / 2
    (∀ s ∈ [v, w], s.canTake ⟨.data, 0#32, false⟩ [] ∧ s.scan.packet = .opened ∧ NextPositionLaw s ∧
        Memory.wf s.window.memory ∧ s.tracker.point.lock ≠ .locked ∧ s.window.counter < 2 ^ 28 ∧
        32 / s.pass.width.bits = 2 ∧ (activeLanes s).length = 2) ∧
      2048 ≤ last ∧ WindowLegal v ∧ BlockReady v v (blk 0 2047 .filling .pending .pending) ∧ LowestFree v 1 ∧
      WindowLegal w ∧ BlockReady w w (blk 63 2047 .filling .pending .pending) ∧ NoneFree w := by
  refine ⟨?_, ?_, ?_, .inl ⟨?_, rfl⟩, ⟨?_, ?_, ?_⟩, witness_brimming.1, .inl ⟨?_, rfl⟩, witness_brimming.2⟩ <;>
    decide +kernel

/-- A DATA word with no block FILLING: a FREE slot, and none. -/
theorem witness_DataWordBecomesTwoSamples_secure :
    let open_ := fun (s : State) =>
      (withEntry .data 0#32 s).setScan
        { (withEntry .data 0#32 s).scan with packet := .opened, context := some { packet with first := s.scan.next } }
    let v := open_ (withBlocks [blk 0 2048 .full .pending .pending] 2048#40)
    (v.canTake ⟨.data, 0#32, false⟩ [] ∧ WindowLegal v ∧ NextPositionLaw v ∧
        BlockReady v (v.slotTaken 1) (newBlock v 1)) ∧
      (open_ noSlot).canTake ⟨.data, 0#32, false⟩ [] ∧ NextPositionLaw (open_ noSlot) ∧
      fillingBlock (open_ noSlot) = none ∧ NoneFree (open_ noSlot) := by
  refine ⟨⟨?_, ?_, ?_, .inr ⟨1, ?_, ?_, ⟨?_, ?_, ?_⟩, rfl, rfl⟩⟩, by decide, by decide +kernel, by decide +kernel,
    witness_noSlot.2⟩ <;> decide

/-- Marks at offsets 4 and 5 of a packet of 4; intervals of 127, 128, 65535 and 65536. -/
theorem witness_MarksAreClassedByInterval :
    let s := withEntry .mark 4#32 inPacket
    s.canTake ⟨.mark, 4#32, false⟩ [] ∧ s.scan.packet = .opened ∧ s.scan.context = some packet ∧
      (4#32).toNat ≤ packet.count ∧ packet.count < (5#32).toNat ∧ s.tracker.lastMark = none ∧
      (∀ i ∈ [127, 128, 65535, 65536],
        (withMark (9#40 - BitVec.ofNat 40 i) s).tracker.lastMark = some (9#40 - BitVec.ofNat 40 i) ∧
        (packet.first + (4#32).setWidth 40 - (9#40 - BitVec.ofNat 40 i)).toInt = i) ∧
      ¬(s.tracker.point.lock = .locked ∧ s.tracker.rejectRun = 2) ∧ s.tracker.validRun < 7 ∧ s.pass.perfMin = 128 ∧
      s.pass.perfMax = 65535 := by decide

/-- The eighth valid interval of an UNLOCKED and of a LOCKED tracker, and the third reject of a LOCKED one, by a spurious
and by a missed mark, at the limits; an event of block 0 and one of a block not yet secured. -/
theorem witness_LockAndHoldoverFollowTheRuns :
    let s := withEntry .mark 4#32 inPacket
    let a := withMark (9#40 - 128#40) (s.setTracker { s.tracker with history := List.replicate 7 128, validRun := 7 })
    let c := withMark (9#40 - 65535#40) (locked (List.replicate 8 1000) 0 s)
    let r := withMark (9#40 - 127#40) (locked [] 2 s)
    let m := withMark (9#40 - 65536#40) (locked [] 2 s)
    let interval := fun (l : Position) => (packet.first + (4#32).setWidth 40 - l).toInt
    WindowLegal a ∧ a.canTake ⟨.mark, 4#32, false⟩ [] ∧ a.scan.packet = .opened ∧ a.scan.context = some packet ∧
      (4#32).toNat ≤ packet.count ∧ a.tracker.lastMark = some (9#40 - 128#40) ∧
      interval (9#40 - 128#40) = a.pass.perfMin ∧ 7 ≤ a.tracker.validRun ∧ a.tracker.point.lock ≠ .locked ∧
      c.tracker.point.lock = .locked ∧ 7 ≤ c.tracker.validRun ∧ interval (9#40 - 65535#40) = c.pass.perfMax ∧
      r.canTake ⟨.mark, 4#32, false⟩ [] ∧ r.scan.context = some packet ∧
      r.tracker.lastMark = some (9#40 - 127#40) ∧ interval (9#40 - 127#40) < r.pass.perfMin ∧
      r.tracker.point.lock = .locked ∧ r.tracker.rejectRun = 2 ∧ interval (9#40 - 65536#40) > m.pass.perfMax ∧
      blockNumberOf s 9#40 = 0 ∧
      (∀ n ∈ [1, 2 ^ 28],
        let first := s.pass.start + BitVec.ofNat 40 (2048 * n)
        (∀ b ∈ s.window.blocks, (b.number : Int) ≠ blockNumberOf s first) ∧ 0 ≤ (first - first).toInt) := by
  refine ⟨?_, ?_, ?_, ?_, ?_, ?_, ?_, ?_, ?_, ?_, ?_, ?_, ?_, ?_, ?_, ?_, ?_, ?_, ?_, ?_, ?_⟩ <;> decide

/-- After the last block of a pass: an event at pass offset 2^39 is held (R30). -/
theorem test_lastBlock_event_held :
    let s := { filling with window := { filling.window with counter := 2 ^ 28 } }
    let p := s.pass.start + BitVec.ofNat 40 (2 ^ 39)
    (publish s.tracker.point .holdover p s).tracker.heldEvents = [⟨p, .holdover⟩] := by decide

/-- END and HEAD with every position of the packet assembled, and with all four missing, in OPEN and in DAMAGED. -/
theorem witness_EndClosesACompletePacket :
    let x := { packet with first := 1#40 }
    let s := (withEntry .close 0#32 inPacket).setContext (some x)
    let m := withEntry .close 0#32 inPacket
    (s.canTake ⟨.close, 0#32, false⟩ [] ∧ s.scan.packet = .opened ∧ s.scan.context = some x ∧
      x.count - (s.scan.next - x.first).toNat = 0) ∧
    (withEntry .head 0#32 inPacket).canTake ⟨.head, 0#32, false⟩ [] ∧ m.canTake ⟨.close, 0#32, false⟩ [] ∧
      (m.setPacket .damaged).scan.packet = .damaged ∧ m.scan.context = some packet ∧
      packet.count - (m.scan.next - packet.first).toNat = 4 ∧ m.pass.runOutEnded = false ∧ WindowLegal m ∧
      NextPositionLaw m ∧ Memory.wf m.window.memory ∧ BlockReady m m (blk 0 5 .filling .pending .pending) ∧
      5 + 4 ≤ 2048 ∧ NoTimeout m 4 := by
  refine ⟨⟨?_, ?_, ?_, ?_⟩, ?_, ?_, ?_, ?_, ?_, ?_, ?_, ?_, ?_, .inl ⟨?_, rfl⟩, ?_, fun h => absurd h ?_⟩ <;> decide

/-- END with four positions missing, a lane of the first written: over the end of block 0 into slot 1, over the end of a block
with no slot FREE, with no block FILLING and slot 1 FREE, and with no slot FREE at all. -/
theorem witness_EndClosesACompletePacket_cross :
    let c := fun (s : State) => withEntry .close 0#32 (openAt 1 [] s)
    let late := withBlocks [blk 0 2048 .full .pending .pending] 2048#40
    (∀ s ∈ [brink, brimming, late, noSlot], (c s).canTake ⟨.close, 0#32, false⟩ [] ∧ (c s).scan.packet = .opened ∧
        NextPositionLaw (c s) ∧ Memory.wf (c s).window.memory ∧ (c s).tracker.point.lock ≠ .locked ∧
        (c s).window.counter < 2 ^ 28 ∧
        (c s).scan.context = some { packet with first := s.scan.next, lanesWritten := 1 }) ∧
      2048 < 2047 + 4 ∧
      (WindowLegal (c brink) ∧ BlockReady (c brink) (c brink) (blk 0 2047 .filling .pending .pending) ∧
        LowestFree (c brink) 1) ∧
      (WindowLegal (c brimming) ∧ BlockReady (c brimming) (c brimming) (blk 63 2047 .filling .pending .pending) ∧
        NoneFree (c brimming)) ∧
      (WindowLegal (c late) ∧ BlockReady (c late) ((c late).slotTaken 1) (newBlock (c late) 1)) ∧
      fillingBlock (c noSlot) = none ∧ NoneFree (c noSlot) := by
  refine ⟨?_, ?_, ⟨?_, .inl ⟨?_, rfl⟩, ?_, ?_, ?_⟩, ⟨witness_brimming.1, .inl ⟨?_, rfl⟩, witness_brimming.2⟩,
    ⟨?_, .inr ⟨1, ?_, ?_, ⟨?_, ?_, ?_⟩, rfl, rfl⟩⟩, ?_, witness_noSlot.2⟩ <;> decide +kernel

/-- The end of a run-out with a FILLING block that holds five positions, one that holds none, and an open packet. -/
theorem witness_RunOutEndSetsTheFinalBlock :
    ∀ s ∈ [inPassState .closing filling, inPassState .closing inPacket, inPassState .closing opened,
        inPassState .closing (withBlocks [blk 0 0 .filling .pending .pending] 0#40)],
      WindowLegal s ∧ s.pass.state = .closing ∧ s.pass.runOutEnded = false ∧ s.scan.fifo = [] ∧
        s.scan.stall.waiting = false := by decide

/-- A written position of the FILLING block, past the limit and at it; and a report once the run-out has ended. -/
theorem witness_TimeoutEntersHoldover :
    let s := withMark (4#40 - 131071#40) (locked [] 0 filling)
    let b := blk 0 5 .filling .pending .pending
    blockHolding s 4#40 = some b ∧ offsetIn b 4#40 < b.fill ∧ b.state = .filling ∧ s.pass.runOutEnded = false ∧
      s.scan.inputEnded = false ∧ s.tracker.lastMark.or s.tracker.slipPosition = some (4#40 - 131071#40) ∧
      s.tracker.point.lock = .locked ∧ 2 * (s.pass.perfMax : Int) < (4#40 - (4#40 - 131071#40)).toInt ∧
      ¬2 * (s.pass.perfMax : Int) < (4#40 - (4#40 - 131070#40)).toInt ∧ s.tracker.lastPublished = none ∧
      (lastBlock .full .pending .pending).pass.runOutEnded = true := by decide

/-- A block that may be taken for a live render; an engine at work, one with a STALE block, one with no PENDING block, and
PENDING blocks that are not FULL, whose predecessor is not DONE, and whose successor is FILLING. -/
theorem witness_EnginesTakeTheBlockTheyMay :
    let b := blk 0 2048 .full .pending .pending
    let s := withBlocks [b, blk 1 2048 .full .pending .pending] 4096#40
    let d := blk 1 2048 .held .stale .done
    let r := withBlocks [blk 0 2048 .held .done .done, d] 4096#40
    let w := withBlocks [blk 0 2048 .full .working .pending, blk 1 2048 .full .pending .pending] 4096#40
    let lowest := fun (s : State) => s.window.blocks.find? (fun c => c.renderOf .lane0 == some .pending)
    workOf s .lane0 = .none ∧ (∀ c ∈ s.window.blocks, c.renderOf .lane0 ≠ some .stale) ∧ lowest s = some b ∧
      b.state = .full ∧ (∀ c ∈ s.window.blocks, c.number + 1 = b.number → c.renderOf .lane0 = some .done) ∧
      (∃ c ∈ s.window.blocks, c.number = b.number + 1 ∧ c.state ≠ .filling) ∧
      workOf (working (.live 0 (flight .detect)) s) .lane0 ≠ .none ∧
      workOf r .lane0 = .none ∧ r.window.blocks.find? (fun c => c.renderOf .lane0 == some .stale) = some d ∧
      (∃ c ∈ r.window.blocks, c.renderOf .lane0 = some .stale) ∧
      (∀ c ∈ r.window.blocks, c.renderOf .lane0 ≠ some .pending) ∧
      lowest filling = some (blk 0 5 .filling .pending .pending) ∧
      lowest w = some (blk 1 2048 .full .pending .pending) ∧
      (∃ c ∈ w.window.blocks, c.number + 1 = 1 ∧ c.renderOf .lane0 ≠ some .done) ∧
      lowest (firstFull .pending .pending) = some b ∧
      (∀ c ∈ (firstFull .pending .pending).window.blocks, c.number = b.number + 1 → c.state = .filling) ∧
      (firstFull .pending .pending).window.finalBlock ≠ some b.number := by decide

/-- A position of the pass that no span covers is not blocked. -/
theorem unblocked_of (s : State) (l : Lane) (q : Position) (v : Sample) (h : inPass s q = true)
    (ho : originalAt s l q = some v) (hv : v ≠ 0x800000#24) (he : s.catalogue.entries = []) : Unblocked s l q v.toInt :=
  ⟨h, ⟨v, ho, hv, rfl⟩, fun e hm => absurd hm (by simp [he])⟩

/-- A position whose second predecessor lies before the pass has no residual. -/
theorem noResidual_of (s : State) (l : Lane) (q : Position) (h : inPass s (q - 2#40) = false) (r : Int) :
    ¬ResidualIs s l q r := by
  rintro ⟨x, y, z, -, -, ⟨hz, -⟩, -⟩
  exact absurd hz (by simp [h])

/-- Detection in IDLE: past the last position of block 0 and at it; at a void position; at offset 1, without a residual; and
at offset 9 with a residual of 0 and of 1048576. -/
theorem witness_ClickListingClosesTheClick :
    let past := listening .idle 2048#40
    let s := listening .idle 9#40
    let v := sampled 9 0x800000#24 s
    let c := sampled 9 0x100000#24 s
    (∀ x ∈ [past, s, v, c, listening .idle 1#40, listening .idle 2047#40],
        workOf x .lane0 = .live 0 (flight .detect) ∧
          blockNumbered x 0 = some (blk 0 2048 .full .working .pending) ∧
          (x.engines.get .lane0).detector.state = .idle) ∧
      (2048 : Int) ≤ ((past.engines.get .lane0).detector.next - 0#40).toInt ∧
      (((listening .idle 2047#40).engines.get .lane0).detector.next - 0#40).toInt < 2048 ∧
      FreeVoid v .lane0 9#40 ∧ (∀ r, ¬ResidualIs (listening .idle 1#40) .lane0 1#40 r) ∧
      ResidualIs s .lane0 9#40 0 ∧ ResidualIs c .lane0 9#40 1048576 ∧
      thresholdNow c .lane0 LaneSettings.defaults < Int.natAbs 1048576 := by
  refine ⟨by decide, by decide, by decide, ⟨by decide, fun e he => absurd he (by decide +revert)⟩,
    noResidual_of _ _ _ (by decide), ⟨0, 0, 0, ?_, ?_, ?_, by decide⟩, ⟨1048576, 0, 0, ?_, ?_, ?_, by decide⟩, by decide⟩
  · exact unblocked_of _ _ _ 0#24 (by decide) (by decide) (by decide) rfl
  · exact unblocked_of _ _ _ 0#24 (by decide) (by decide) (by decide) rfl
  · exact unblocked_of _ _ _ 0#24 (by decide) (by decide) (by decide) rfl
  · exact unblocked_of _ _ _ 0x100000#24 (by decide) (by decide) (by decide) rfl
  · exact unblocked_of _ _ _ 0#24 (by decide) (by decide) (by decide) rfl
  · exact unblocked_of _ _ _ 0#24 (by decide) (by decide) (by decide) rfl

/-- A click forming from position 300: at 556, the last position that may extend it, and at 557, where it is capped; with a
residual of 0, which keeps it open at guard count 1 of 3 and closes it at 2; at a position without a residual; and at the end
of the pass. -/
theorem witness_ClickListingClosesTheClick_closes :
    let at_ := fun (g : Nat) (q : Position) => listening (.click 300#40 304#40 900 g) q
    let last := listeningLast (.click 1#40 2#40 900 0) 3#40
    (workOf (at_ 0 557#40) .lane0 = .live 0 (flight .detect) ∧
        blockNumbered (at_ 0 557#40) 0 = some (blk 0 2048 .full .working .pending) ∧
        ((at_ 0 557#40).engines.get .lane0).detector.state = .click 300#40 304#40 900 0) ∧
      (ResidualIs (sampled 556 0x100000#24 (at_ 0 556#40)) .lane0 556#40 1048576 ∧ (556#40 - 300#40).toInt ≤ 256) ∧
      (ResidualIs (at_ 0 309#40) .lane0 309#40 0 ∧ 0 + 1 < (flight .detect).settings.guardLen) ∧
      ClickCloses (sampled 557 0x100000#24 (at_ 0 557#40)) .lane0 LaneSettings.defaults 300#40 304#40 0 255 558#40
        1048576 ∧
      ClickCloses (at_ 2 309#40) .lane0 LaneSettings.defaults 300#40 304#40 2 3 310#40 0 ∧
      ClickCloses (at_ 0 2053#40) .lane0 LaneSettings.defaults 300#40 304#40 0 3 2053#40 0 ∧
      ClickCloses last .lane0 LaneSettings.defaults 1#40 2#40 0 2 3#40 0 := by
  have flat : ∀ s : State, ∀ q, inPass s q = true → originalAt s .lane0 q = some 0#24 → s.catalogue.entries = [] →
      Unblocked s .lane0 q 0 := fun s q h ho he => unblocked_of s .lane0 q 0#24 h ho (by decide) he
  have high : ∀ s : State, ∀ q, inPass s q = true → originalAt s .lane0 q = some 0x100000#24 → s.catalogue.entries = [] →
      Unblocked s .lane0 q 1048576 := fun s q h ho he => unblocked_of s .lane0 q 0x100000#24 h ho (by decide) he
  refine ⟨by decide,
    ⟨⟨1048576, 0, 0, high _ _ (by decide) (by decide) rfl, flat _ _ (by decide) (by decide) rfl,
      flat _ _ (by decide) (by decide) rfl, by decide⟩, by decide⟩,
    ⟨⟨0, 0, 0, flat _ _ (by decide) (by decide) rfl, flat _ _ (by decide) (by decide) rfl,
      flat _ _ (by decide) (by decide) rfl, by decide⟩, by decide⟩,
    .inr (.inr ⟨1048576, by decide, ⟨1048576, 0, 0, high _ _ (by decide) (by decide) rfl,
      flat _ _ (by decide) (by decide) rfl, flat _ _ (by decide) (by decide) rfl, by decide⟩, by decide,
      .inr ⟨by decide, by decide, rfl, by decide⟩⟩),
    .inr (.inr ⟨0, by decide, ⟨0, 0, 0, flat _ _ (by decide) (by decide) rfl, flat _ _ (by decide) (by decide) rfl,
      flat _ _ (by decide) (by decide) rfl, by decide⟩, by decide, .inl ⟨by decide, by decide, by decide, by decide⟩⟩),
    .inr (.inl ⟨by decide, ?_, by decide, by decide, by decide⟩),
    .inl ⟨⟨0, blk 0 3 .full .working .pending, by decide, by decide, by decide⟩, by decide, by decide, by decide,
      by decide⟩⟩
  rintro r ⟨x, y, z, ⟨-, ⟨v, hv, -⟩, -⟩, -⟩
  exact absurd hv (by rw [show originalAt _ _ _ = none from by decide]; exact nofun)

/-- A click of three positions from 300: over no other span, over a GAP that begins at 302, and over one that covers 300. -/
theorem witness_ClickListingClosesTheClick_clash :
    let s := listening (.click 300#40 304#40 900 2) 309#40
    ClashLeaves s .lane0 300#40 3 (some 3) ∧ ClashLeaves (withEntries [gapAt 1 302#40 4] s) .lane0 300#40 3 (some 2) ∧
      ClashLeaves (withEntries [gapAt 1 299#40 2] s) .lane0 300#40 3 none := by
  refine ⟨.inr (.inl ⟨fun e he => absurd he.1 List.not_mem_nil, rfl⟩), .inr (.inr ⟨?_, gapAt 1 302#40 4, ?_, ?_, ?_⟩),
    .inl ⟨⟨gapAt 1 299#40 2, ⟨List.mem_singleton.mpr rfl, .inl rfl, 2, rfl, by decide, by decide⟩, 2, rfl, by decide,
      by decide⟩, rfl⟩⟩
  · rintro e ⟨he, -⟩ ⟨m, hm, h, -⟩
    obtain rfl := List.mem_singleton.mp he
    exact absurd h (by decide)
  · exact ⟨List.mem_singleton.mpr rfl, .inl rfl, 4, rfl, by decide, by decide⟩
  · rintro x ⟨hx, -⟩
    obtain rfl := List.mem_singleton.mp hx
    exact le_refl _
  · decide

/-- A void run: at a void position, of 17 positions and of 2047, which the position completes; at a position that is not
void; and at the end of the pass. -/
theorem witness_VoidListingEndsTheRun :
    let at_ := fun (n : Nat) => listening (.void 100#40 n) 9#40
    let v := fun (n : Nat) => sampled 9 0x800000#24 (at_ n)
    (∀ n ∈ [17, 2047], workOf (at_ n) .lane0 = .live 0 (flight .detect) ∧ (flight .detect).stage = .detect ∧
        blockNumbered (at_ n) 0 = some (blk 0 2048 .full .working .pending) ∧
        ((at_ n).engines.get .lane0).detector.state = .void 100#40 n) ∧
      (pastEnd (v 17) 9#40 = false ∧ FreeVoid (v 17) .lane0 9#40 ∧ 17 + 1 < 2048) ∧
      VoidCloses (v 2047) .lane0 2047 2048 10#40 ∧ VoidCloses (at_ 17) .lane0 17 17 9#40 ∧
      VoidCloses (listeningLast (.void 1#40 2) 3#40) .lane0 2 2 3#40 := by
  refine ⟨by decide, ⟨by decide, ⟨by decide, fun e he => absurd he (by decide +revert)⟩, by decide⟩,
    .inr (.inr ⟨by decide, ⟨by decide, fun e he => absurd he (by decide +revert)⟩, by decide, by decide, by decide⟩),
    .inr (.inl ⟨by decide, fun h => absurd h.1 (by decide), rfl, by decide⟩), .inl ⟨by decide, rfl, by decide⟩⟩

/-- A finished live render of a block with a next one: it becomes HELD where the other lane is done, and does not where that
is still PENDING or in a live render of the block. -/
theorem witness_LiveCompletionWritesItsResults :
    let f := sounding .finished
    let w := fun r : RenderState =>
      working (.live 0 f) (withBlocks [blk 0 2048 .full .working r, blk 1 2048 .full .pending .pending] 4096#40)
    let becomesHeld := fun (s : State) (r : RenderState) =>
      ∀ y, y ≠ Lane.lane0 →
        (blk 0 2048 .full .working r).renderOf y ≠ some .pending ∧
          ((blk 0 2048 .full .working r).renderOf y = some .working → ∀ g, workOf s y ≠ .live 0 g)
    WindowLegal (w .done) ∧ workOf (w .done) .lane0 = .live 0 f ∧ f.stage = .finished ∧ f.hum = some hum0 ∧
      f.hiss = some hiss0 ∧ blockNumbered (w .done) 0 = some (blk 0 2048 .full .working .done) ∧
      (blk 0 2048 .full .working .done).lanes.get .lane0 = some (recordIn .working) ∧ WindowLegal (w .pending) ∧
      becomesHeld (w .done) .done ∧ ¬becomesHeld (w .pending) .pending ∧
      ¬becomesHeld ((w .working).setWork .lane1 (.live 0 f)) .working := by
  refine ⟨by decide, by decide, by decide, by decide, by decide, by decide, by decide, by decide, ?_,
    fun h => absurd (h .lane1 (by decide)).1 (by decide), fun h => (h .lane1 (by decide)).2 (by decide) _ rfl⟩
  rintro (- | - | - | -) hy
  · exact absurd rfl hy
  all_goals exact ⟨by decide, fun h => absurd h (by decide)⟩

/-- Learns that count block 0: with more blocks remaining, with this the last, and with no position counted. -/
theorem witness_LiveCompletionWritesItsResults_learn :
    ∀ x ∈ [(⟨.active, 2, 70, 9, some 0⟩ : Learn), ⟨.active, 1, 70, 9, some 0⟩, ⟨.ending, 1, 0, 0, some 0⟩],
      ((filling.mapLearn .lane0 (fun _ => x)).engines.get .lane0).learn = x ∧ x.counted = some 0 := by decide

/-- A finished re-render of a HELD block, clean, with a next block. -/
theorem witness_ReRenderCompletionWritesItsResults :
    let f := sounding .finished
    let s := working (.reRender 0 f) (withBlocks [blk 0 2048 .held .working .done, blk 1 2048 .held .done .done] 4096#40)
    WindowLegal s ∧ workOf s .lane0 = .reRender 0 f ∧ f.stage = .finished ∧ f.hum = some hum0 ∧ f.hiss = some hiss0 ∧
      blockNumbered s 0 = some (blk 0 2048 .held .working .done) ∧
      (blk 0 2048 .held .working .done).lanes.get .lane0 = some (recordIn .working) ∧
      ∀ c ∈ s.window.blocks, c.number ≠ 0 → c.renderOf .lane0 ≠ some .stale := by decide

/-- A re-render taken of a whole block; and a block that may be taken for a live render, the detector at its first
position. -/
theorem witness_ReRenderRunsToItsEnd :
    let b := blk 0 2048 .held .working .done
    let s := working (.reRender 0 (flight (.mend 0))) (withBlocks [b] 2048#40)
    let c := blk 0 2048 .full .pending .pending
    let v := withBlocks [c, blk 1 2048 .full .pending .pending] 4096#40
    workOf s .lane0 = .reRender 0 (flight (.mend 0)) ∧ (flight (.mend 0)).stage = .mend 0 ∧
      blockNumbered s 0 = some b ∧ (b.lanes.get .lane0).isSome = true ∧ b.fill ≤ 2048 ∧
      Memory.wf s.window.memory ∧ WindowLegal v ∧ Memory.wf v.window.memory ∧ workOf v .lane0 = .none ∧
      (∀ c ∈ v.window.blocks, c.renderOf .lane0 ≠ some .stale) ∧
      v.window.blocks.find? (fun c => c.renderOf .lane0 == some .pending) = some c ∧ c.state = .full ∧
      (∃ d ∈ v.window.blocks, d.number = c.number + 1 ∧ d.state ≠ .filling) ∧
      (v.engines.get .lane0).settings.guardLen ≤ 8 ∧ (v.engines.get .lane0).detector.state = .idle ∧
      (v.engines.get .lane0).detector.next = c.first + BitVec.ofNat 40 0 := by
  refine ⟨?_, ?_, ?_, ?_, ?_, ?_, ?_, ?_, ?_, ?_, ?_, ?_, ?_, ?_, ?_, ?_⟩ <;> decide

/-- The last position of a whole block, UNLOCKED, in a re-render and in a live render. -/
theorem witness_UnlockedUnityStepCopiesMended :
    let f := sounding (.sound 2047)
    let b := blk 0 2048 .held .working .done
    let s := writeSample (working (.reRender 0 f) (withBlocks [b] 2048#40)) b .mended .lane0 2047 0x123456#24
    workOf s .lane0 = .reRender 0 f ∧ workOf (working (.live 0 f) s) .lane0 = .live 0 f ∧ f.stage = .sound 2047 ∧
      f.hum = some hum0 ∧ f.hiss = some hiss0 ∧
      blockNumbered s 0 = some b ∧ 2047 < b.fill ∧ (∀ e ∈ b.events, e.offset ≠ 2047) ∧
      hum0.point.lock = .unlocked ∧ hiss0.threshold = 0 ∧ readSample s b .mended .lane0 2047 ≠ Config.voidValue ∧
      Memory.wf s.window.memory ∧ WindowLegal s := by
  refine ⟨?_, ?_, ?_, ?_, ?_, ?_, ?_, ?_, ?_, ?_, ?_, ?_, ?_⟩ <;> decide

/-- Position 9 of a block LOCKED with an event there, on a lane with a learn that counts the block: suspended under a CLICK
with decision HOLD, and not under one with decision PASS; and a void original value. -/
theorem witness_UnlockedUnityStepCopiesMended_sound :
    let f := { flight (.sound 9) with hum := some { hum0 with point := ⟨.locked, some 8000⟩ }, hiss := some hiss0 }
    let b := { blk 0 2048 .full .working .done with events := [⟨9, .accept 8008⟩] }
    let s := (working (.live 0 f) (withBlocks [b] 2048#40)).mapLearn .lane0 (fun _ => ⟨.active, 2, 10, 3, some 0⟩)
    let e := fun (d : Decision) => withEntries [decided (clickAt 1 8#40 3) d] s
    (∀ d, workOf (e d) .lane0 = .live 0 f ∧ blockNumbered (e d) 0 = some b ∧ WindowLegal (e d)) ∧
      f.stage = .sound 9 ∧ 9 < b.fill ∧ Suspended (e .hold) b .lane0 9 ∧ ¬Suspended (e .pass) b .lane0 9 ∧
      Suspended (writeSample s b .original .lane0 9 0x800000#24) b .lane0 9 := by
  refine ⟨fun d => ⟨rfl, rfl, by cases d <;> decide⟩, by decide, by decide, .inr ⟨decided (clickAt 1 8#40 3) .hold, List.mem_singleton.mpr rfl,
    ⟨.inr rfl, 3, rfl, by decide, by decide⟩, .inr rfl⟩, ?_, .inl (by decide)⟩
  rintro (h | ⟨e, he, -, h⟩)
  · exact absurd h (by decide)
  · obtain rfl := List.mem_singleton.mp he
    exact absurd h (by decide)

/-- The mend stage past the last position of a block, and the hum and hiss stages past it, in a live render and in a
re-render. -/
theorem witness_UnlockedUnityStepCopiesMended_ends :
    let b := blk 0 2048 .held .working .done
    let s := withBlocks [b] 2048#40
    WindowLegal s ∧ Memory.wf s.window.memory ∧ b.fill ≤ 2048 ∧ b.lanes.get .lane0 = some (recordIn .working) ∧
      ∀ f ∈ [flight (.mend 2048), sounding (.sound 2048)],
        workOf (working (.live 0 f) s) .lane0 = .live 0 f ∧ workOf (working (.reRender 0 f) s) .lane0 = .reRender 0 f ∧
          blockNumbered (working (.live 0 f) s) 0 = some b := by
  refine ⟨?_, ?_, ?_, ?_, ?_⟩ <;> decide

/-- A position in no span, and one in a CLICK of three positions under each decision and in a carried run. -/
theorem witness_UnlockedUnityStepCopiesMended_mend :
    let b := blk 0 2048 .full .working .done
    let s := working (.live 0 (flight (.mend 9))) (withBlocks [b] 2048#40)
    let e := fun (d : Decision) => withEntries [decided (clickAt 1 8#40 3) d] s
    let c := s.mapDetector .lane0 (fun d => { d with carry := [⟨.void, 8#40, 3, .repair⟩] })
    WindowLegal s ∧ blockNumbered s 0 = some b ∧ Untreated s true .lane0 9#40 ∧
      (∀ d, Treats (e d) true .lane0 9#40 .click 8#40 3 d) ∧ Treats c true .lane0 9#40 .void 8#40 3 .repair := by
  refine ⟨by decide, by decide, ⟨by simp [working, withBlocks, State.setWork, State.mapEngine, opened, State.reset,
    Catalogue.reset], fun _ => by simp [working, withBlocks, State.setWork, State.mapEngine, opened, State.reset,
    PerLane.get, PerLane.set, PerLane.same, LaneEngine.reset, Detector.reset]⟩, fun d => .inl ?_, .inr ?_⟩
  · exact ⟨decided (clickAt 1 8#40 3) d, List.mem_singleton.mpr rfl, ⟨.inr rfl, 3, rfl, by cases d <;> decide, by cases d <;> decide⟩, rfl, rfl,
      rfl, rfl, fun x hx _ => .inl (List.mem_singleton.mp hx)⟩
  · refine ⟨rfl, by simp [working, withBlocks, State.setWork, State.mapEngine, State.mapDetector, opened, State.reset,
      Catalogue.reset], ⟨.void, 8#40, 3, .repair⟩, List.mem_singleton.mpr rfl, rfl, ⟨by decide, by decide⟩, ?_⟩
    exact fun y hy _ => List.mem_singleton.mp hy

/-- Values at both ends of full scale; an UNLOCKED, a LOCKED and a HOLDOVER point; a harmonic that is active and one that is
not; ratios and an S8 at the ends of their ranges. -/
theorem witness_HumStageFollowsTheLockState :
    let g := [TrackerEventKind.lock 1024].foldl (HumState.applyEvent LaneSettings.defaults) hum0
    let fast := { LaneSettings.defaults with rhoA := 65535 }
    let x := [TrackerEventKind.lock 1024].foldl (HumState.applyEvent fast) hum0
    (-8388607 : Int) ≤ -8388607 ∧ (8388607 : Int) ≤ 8388607 ∧ hum0.point.lock = .unlocked ∧
      g.point.lock = .locked ∧
      (([TrackerEventKind.holdover].foldl (HumState.applyEvent LaneSettings.defaults)
        { hum0 with point := ⟨.locked, some 524280⟩ }).point.lock) = .holdover ∧
      g.slots.length = 12 ∧ LaneSettings.defaults.harmonicsA + LaneSettings.defaults.harmonicsB ≤ 12 ∧
      (0 < LaneSettings.defaults.harmonicsA ∧ (0 + 1) * g.incOf .a < 2 ^ 31) ∧
      (3 < fast.harmonicsA ∧ ¬(4 + 1) * x.incOf .a < 2 ^ 31) ∧ 1 ≤ 65535 ∧ 1024 ≤ 524280 := by decide

/-- Full scale on both sides, an empty envelope and the largest gmin; and the worked example 7.5.1 at offset 4. -/
theorem witness_HissStageFollowsTheGainLaw :
    (-8388607 : Int) ≤ -8388607 ∧ (8388607 : Int) ≤ 8388607 ∧ -8388607 ≤ (0x7FFFFF#24).toInt ∧
      (0x7FFFFF#24).toInt ≤ 8388607 ∧ (0#25).toNat ≤ 16777214 ∧ (16777214#25).toNat ≤ 16777214 ∧ 32768 ≤ 32768 ∧
      hissPosition LaneSettings.defaults 5000
          { lp := 1013#24, env := 576#25, threshold := 600, learnFlag := false } =
        (5000#24, { lp := 1511#24, env := 1304#25, threshold := 600, learnFlag := false }) := by decide

/-- A command that answers, from a state with every invariant but SamplesSound: the hypotheses of
WindowMemoryKeepsCanonicalForm, InputAndParametersStayLegal, LaneSettingsStayInRange, TrackerStaysLegal,
WindowAndNextPositionStayLegal and CatalogueStaysLegal, and with the next theorem of MendedAndRestoredStaySound. -/
theorem witness_invariants :
    exec (.transfer .data 0#32) filling = .next (ran (.transfer .data 0#32) filling) ∧ InputLegal filling ∧
      ParametersLegal filling ∧ SettingsLegal filling ∧ TrackerLegal filling ∧ WindowLegal filling ∧
      NextPositionLaw filling ∧ CatalogueLegal (withEntries [clickAt 1 1#40 2, gapAt 2 4#40 1] filling) ∧
      AnchorsSound filling ∧ Memory.wf filling.window.memory := by
  refine ⟨rfl, ?_, ?_, ?_, ?_, ?_, ?_, ?_, ?_, ?_⟩ <;> decide

/-- SamplesSound of the same state: no cell is listed. -/
theorem witness_MendedAndRestoredStaySound : SamplesSound filling := by
  intro a _
  exact (by decide : Config.unwrittenSample ≠ Config.voidValue)

end Sys2Proof.Tests
end

section
/-! Arrivals on the scan link (R2): what a transfer does in each pass state and at each fullness of the scan FIFO. -/

namespace Sys2Proof.Machine

/-! ## The loss mark of the newest entry -/

/-- The recursion of `markLoss` passes over an entry that has a newer one behind it. -/
theorem markLoss_cons_of_ne_nil (e : FifoEntry) {rest : List FifoEntry} (h : rest ≠ []) :
    markLoss (e :: rest) = e :: markLoss rest := by
  cases rest with
  | nil => exact absurd rfl h
  | cons _ _ => rfl

theorem markLoss_append_singleton (older : List FifoEntry) (newest : FifoEntry) :
    markLoss (older ++ [newest]) = older ++ [{ newest with loss := true }] := by
  induction older with
  | nil => rfl
  | cons e older ih =>
    rw [List.cons_append, markLoss_cons_of_ne_nil e (by simp), ih, List.cons_append]

/-! ## One equation per case of an arrival -/

theorem exec_transfer (g : Tag) (w : Word32) (s : State) :
    exec (.transfer g w) s = .next (settle (arrive g w s)) := rfl

theorem arrive_of_room (g : Tag) (w : Word32) {s : State} (hrun : s.pass.state = .running)
    (hroom : s.scan.fifo.length < Config.fifoDepth) :
    arrive g w s = s.setScan { s.scan with fifo := s.scan.fifo ++ [⟨g, w, false⟩] } := by
  rw [arrive, if_pos hrun, if_pos hroom]

theorem arrive_of_full (g : Tag) (w : Word32) {s : State} (hrun : s.pass.state = .running)
    (hfull : Config.fifoDepth ≤ s.scan.fifo.length) :
    arrive g w s = raise .link (s.setScan { s.scan with fifo := markLoss s.scan.fifo }) := by
  rw [arrive, if_pos hrun, if_neg (Nat.not_lt.mpr hfull)]

theorem arrive_of_not_running (g : Tag) (w : Word32) {s : State} (hrun : s.pass.state ≠ .running) :
    arrive g w s = s := by
  rw [arrive, if_neg hrun]

/-- Settles O32, by the three cases of an arrival (R2): RUNNING with room, RUNNING and full, not RUNNING. -/
theorem transferArrivesByPassStateAndFullness : Obligations.TransferArrivesByPassStateAndFullness := by
  intro s g w
  refine ⟨fun hrun hroom => ?room, fun older newest hrun hfifo hfull => ?full, fun hrun => ?notRunning⟩
  case room => rw [exec_transfer, arrive_of_room g w hrun hroom]
  case full => rw [exec_transfer, arrive_of_full g w hrun hfull, hfifo, markLoss_append_singleton]
  case notRunning => rw [exec_transfer, arrive_of_not_running g w hrun]

end Sys2Proof.Machine
end

section
/-! OPEN (R152, R153): what its arguments spell and which of them are refused, what setting up a pass leaves in each part
of the state, and the whole frame, refused and taken. -/

namespace Sys2Proof.Machine

/-! ## The argument bytes (R191, R193) -/

/-- A field of a value and the byte below it are one field. -/
theorem field_append_byte {w : Nat} (v : BitVec w) (len : Nat) {above low : Nat} (h : above = low + 8) :
    v.extractLsb' above len ++ v.extractLsb' low 8 = v.extractLsb' low (len + 8) :=
  BitVec.extractLsb'_append_extractLsb'_eq_extractLsb' h

theorem bytes2_join (v : BitVec 16) : v.extractLsb' 8 8 ++ v.extractLsb' 0 8 = v := by
  rw [field_append_byte v 8 (low := 0) rfl, BitVec.extractLsb'_eq_self]

theorem bytes5_join (v : Position) :
    v.extractLsb' 32 8 ++ v.extractLsb' 24 8 ++ v.extractLsb' 16 8 ++ v.extractLsb' 8 8 ++ v.extractLsb' 0 8 = v := by
  rw [field_append_byte v 8 (low := 24) rfl, field_append_byte v 16 (low := 16) rfl,
    field_append_byte v 24 (low := 8) rfl, field_append_byte v 32 (low := 0) rfl, BitVec.extractLsb'_eq_self]

theorem OpenArgs.ofBytes_toBytes (a : OpenArgs) : OpenArgs.ofBytes a.toBytes = some a :=
  congrArg some (by simp only [bytes5_join, bytes2_join])

/-! ## The format byte (R193) -/

theorem Width.ofNat?_eq_some_iff (n : Nat) (w : Width) : Width.ofNat? n = some w ↔ w.bits = n := by
  constructor
  · intro h
    unfold Width.ofNat? at h
    split at h <;> cases h <;> rfl
  · rintro rfl
    cases w <;> rfl

theorem Width.ofNat?_eq_none {n : Nat} (h : n ∉ [12, 16, 20, 24]) : Width.ofNat? n = none := by
  refine Option.eq_none_iff_forall_ne_some.mpr fun w hw => h ?_
  rw [← (Width.ofNat?_eq_some_iff n w).mp hw]
  cases w <;> decide

theorem formatWidth_eq_ofNat? (f : Byte) : formatWidth f = Width.ofNat? (f.toNat % 32) := by
  simp [formatWidth]

theorem orderField_toNat (f : Byte) : (f.extractLsb' 5 3).toNat = f.toNat / 32 := by
  have hf : f.toNat < 256 := f.isLt
  simp only [BitVec.extractLsb'_toNat, Nat.shiftRight_eq_div_pow]
  omega

theorem formatOrder_eq_some {f : Byte} {o : ByteOrder} (h : f.toNat / 32 = if o = .highFirst then 0 else 1) :
    formatOrder f = some o := by
  rw [formatOrder, orderField_toNat, h]
  cases o <;> rfl

theorem formatOrder_eq_none {f : Byte} (h : 1 < f.toNat / 32) : formatOrder f = none := by
  rw [formatOrder, orderField_toNat]
  split
  · next hzero => omega
  · next hone => omega
  · rfl

/-! ## The arguments refused and clamped (R152) -/

theorem openParameters_eq_none {a : OpenArgs}
    (h : a.laneMask = 0#8 ∨ 15 < a.laneMask.toNat ∨ a.format.toNat % 32 ∉ [12, 16, 20, 24] ∨
      1 < a.format.toNat / 32) : openParameters a = none := by
  unfold openParameters
  split
  · rfl
  · next hmask =>
    obtain hzero | hhigh | hwidth | horder := h
    · exact absurd (.inl hzero) hmask
    · exact absurd (.inr hhigh) hmask
    · rw [formatWidth_eq_ofNat?, Width.ofNat?_eq_none hwidth]
    · rw [formatOrder_eq_none horder]
      cases formatWidth a.format <;> rfl

/-- No 16-bit value lies above the upper bound 65535 of the perforation limits, so that their clamps only raise. -/
theorem clampNat_of_bitVec16 (lo : Nat) (v : BitVec 16) : clampNat lo 65535 v.toNat = max lo v.toNat := by
  have hv : v.toNat < 65536 := v.isLt
  unfold clampNat
  omega

/-- The pass that an OPEN of good arguments sets up (R152). -/
def openedPass (a : OpenArgs) (w : Width) (o : ByteOrder) : PassControl :=
  { state := .running, laneMask := a.laneMask.setWidth 4, width := w, byteOrder := o, start := a.start
    perfMin := max 128 a.perfMin.toNat, perfMax := max (max 128 a.perfMin.toNat) a.perfMax.toNat
    spliceSpan := max 4 (min 48 a.spliceSpan.toNat), runOutEnded := false }

theorem openParameters_eq_some {a : OpenArgs} {w : Width} {o : ByteOrder} (hlow : 1 ≤ a.laneMask.toNat)
    (hhigh : a.laneMask.toNat ≤ 15) (hw : w.bits = a.format.toNat % 32)
    (ho : a.format.toNat / 32 = if o = .highFirst then 0 else 1) : openParameters a = some (openedPass a w o) := by
  have hmask : ¬(a.laneMask = 0#8 ∨ 15 < a.laneMask.toNat) := by
    rintro (hzero | hover)
    · simp [hzero] at hlow
    · omega
  have hwidth : formatWidth a.format = some w := by
    rw [formatWidth_eq_ofNat?, Width.ofNat?_eq_some_iff, hw]
  have hsplice : clampNat 4 48 a.spliceSpan.toNat = max 4 (min 48 a.spliceSpan.toNat) := by
    rw [clampNat, Nat.min_comm]
  rw [openParameters, if_neg hmask, hwidth, formatOrder_eq_some ho, openedPass,
    BitVec.setWidth_eq_extractLsb' (by decide)]
  simp only [clampNat_of_bitVec16, hsplice]

theorem openResult_eq (a : OpenArgs) (x : PassControl) :
    doneOrClamped (openClamped a x) =
      if x.perfMin = a.perfMin.toNat ∧ x.perfMax = a.perfMax.toNat ∧ x.spliceSpan = a.spliceSpan.toNat then .done
      else .clamped := by
  have hclamped : openClamped a x = true ↔
      ¬(x.perfMin = a.perfMin.toNat ∧ x.perfMax = a.perfMax.toNat ∧ x.spliceSpan = a.spliceSpan.toNat) := by
    simp only [openClamped, Bool.or_eq_true, bne_iff_ne, ne_eq, not_and_or, or_assoc]
  simp only [doneOrClamped, hclamped, ite_not]

/-! ## The parts of a state set up for a new pass (R153) -/

@[simp] theorem setUpPass_pending (x : PassControl) (s : State) : (setUpPass x s).pending = s.pending := rfl

@[simp] theorem setUpPass_pass (x : PassControl) (s : State) : (setUpPass x s).pass = x := rfl

@[simp] theorem setUpPass_scan (x : PassControl) (s : State) :
    (setUpPass x s).scan = { ScanInput.reset with ready := s.scan.ready, next := x.start } := rfl

@[simp] theorem setUpPass_tracker (x : PassControl) (s : State) : (setUpPass x s).tracker = Tracker.reset := rfl

@[simp] theorem setUpPass_window (x : PassControl) (s : State) :
    (setUpPass x s).window = { s.window with blocks := [], counter := 0, finalBlock := none, releaseMark := none } := rfl

@[simp] theorem setUpPass_catalogue (x : PassControl) (s : State) : (setUpPass x s).catalogue = Catalogue.reset := rfl

@[simp] theorem setUpPass_engine (x : PassControl) (s : State) (l : Lane) :
    (setUpPass x s).engines.get l = (s.engines.get l).openPass x.start := PerLane.get_mapIdx _ _ _

@[simp] theorem setUpPass_ports (x : PassControl) (s : State) : (setUpPass x s).ports = s.ports := rfl

@[simp] theorem setUpPass_rights (x : PassControl) (s : State) : (setUpPass x s).rights = s.rights := rfl

/-- Setting up a pass does not touch the ports. -/
theorem setUpPass_mapPort (x : PassControl) (s : State) (p : Port) (f : PortState → PortState) :
    setUpPass x (s.mapPort p f) = (setUpPass x s).mapPort p f := rfl

/-- A new pass is RUNNING with an empty scan FIFO, so that READY is high (R3). -/
theorem readyOf_setUpPass {x : PassControl} (s : State) (p : Port) (r : Result) (d : List Nibble)
    (hrun : x.state = .running) : readyOf ((setUpPass x s).frameEnded p r d) = true := by
  simp [readyOf, hrun, ScanInput.reset]

/-! ## A whole frame of OPEN -/

theorem acceptance_openPass {s : State} {p : Port} (hright : s.rights.pass = p) (hidle : s.pass.state = .idle)
    (lane : Byte) : acceptance s p .openPass lane = .done := by
  simp [acceptance, hasRight, requiredResource, Rights.owner, acceptedIn, hright, hidle]

theorem exec_openPass {s : State} {p : Port} (a : OpenArgs) (n : Nat) (hfree : s.portFree p)
    (hright : s.rights.pass = p) (hidle : s.pass.state = .idle) :
    exec (.openPass p (.whole a n)) s =
      let s1 := s.mapPort p (fun q =>
        q.replied (Request.openPass.code :: a.toBytes) n (statusByte s p) (statusReply s p n))
      .next (settle (endFrame p (takeOpen a s1).2 (takeOpen a s1).1)) :=
  congrArg completed
    (commandFrame_taken hfree (OpenArgs.ofBytes_toBytes a) (acceptance_openPass hright hidle _))

theorem exec_openPass_refused {s : State} {p : Port} {a : OpenArgs} (n : Nat) (hfree : s.portFree p)
    (hright : s.rights.pass = p) (hidle : s.pass.state = .idle) (hbad : openParameters a = none) :
    exec (.openPass p (.whole a n)) s = .next (settle (s.frameEnded p .arg (statusReply s p n))) := by
  simp only [exec_openPass a n hfree hright hidle, takeOpen, hbad, endFrame_replied]

theorem exec_openPass_taken {s : State} {p : Port} {a : OpenArgs} {x : PassControl} (n : Nat) (hfree : s.portFree p)
    (hright : s.rights.pass = p) (hidle : s.pass.state = .idle) (hgood : openParameters a = some x) :
    exec (.openPass p (.whole a n)) s =
      .next (settle ((setUpPass x s).frameEnded p (doneOrClamped (openClamped a x)) (statusReply s p n))) := by
  simp only [exec_openPass a n hfree hright hidle, takeOpen, hgood, setUpPass_mapPort, endFrame_replied]

/-- Settles O16: bad arguments give no pass parameters and the frame is refused (R152); good ones set up the pass that
`openedPass` names, whose parts are read off one by one (R153). -/
theorem openChecksClampsAndSetsUp : Obligations.OpenChecksClampsAndSetsUp := by
  intro s p a n hfree hright hidle
  refine ⟨fun hbad => exec_openPass_refused n hfree hright hidle (openParameters_eq_none hbad),
    fun w o hlow hhigh hw ho => ?_⟩
  have hexec := exec_openPass_taken n hfree hright hidle (openParameters_eq_some hlow hhigh hw ho)
  rw [openResult_eq] at hexec
  refine ⟨_, hexec, rfl, ?scan, rfl, rfl, rfl, ?engines, rfl, rfl, ?result, ?frame, ?driven, ?events, ?others⟩
  case scan => rw [settle_scan, readyOf_setUpPass s p _ _ rfl]; rfl
  case engines => exact fun l => setUpPass_engine _ s l
  case result => simp [PortState.afterFrame, openedPass]
  case frame => simp [PortState.afterFrame]
  case driven => simp [PortState.afterFrame]
  case events =>
    intro x
    by_cases hx : x = p
    · subst hx
      simp [PortState.afterFrame]
    · simp [hx]
  case others =>
    intro x hx
    simp [hx, PortState.quiet]

end Sys2Proof.Machine
end

section
/-! GRANT (R173): the rights table after a grant, what the two argument bytes name, and the whole frame, denied, refused
for its arguments, and taken. -/

namespace Sys2Proof.Machine

/-! ## The rights table after a grant -/

theorem Rights.owner_grant (g : Rights) (r x : Resource) (p : Port) :
    (g.grant r p).owner x = if x = r then p else g.owner x := by
  cases r with
  | lane l =>
    cases x with
    | lane m =>
      simp only [Resource.lane.injEq]
      exact PerLane.get_set g.lanes l m p
    | pass | review | drain | chief => rfl
  | pass | review | drain | chief => cases x <;> rfl

/-! ## What the argument bytes name (R173, R191) -/

theorem GrantArgs.ofBytes_toBytes (a : GrantArgs) : GrantArgs.ofBytes a.toBytes = some a := rfl

/-- A resource code is a place in the code order. -/
theorem Resource.ofCode_eq_getElem? (c : Byte) : Resource.ofCode c = Resource.all[c.toNat]? := by
  unfold Resource.ofCode
  generalize c.toNat = k
  match k with
  | 0 | 1 | 2 | 3 | 4 | 5 | 6 | 7 => rfl
  | _ + 8 => rfl

/-- A port number is a place in the order of the ports. -/
theorem Port.ofNat?_eq_getElem? (k : Nat) : Port.ofNat? k = Port.all[k]? :=
  match k with
  | 0 | 1 | 2 => rfl
  | _ + 3 => rfl

theorem Resource.ofCode_eq_none {c : Byte} (h : 7 < c.toNat) : Resource.ofCode c = none := by
  rw [Resource.ofCode_eq_getElem?]
  exact List.getElem?_eq_none h

theorem Port.ofNat?_eq_none {k : Nat} (h : 2 < k) : Port.ofNat? k = none := by
  rw [Port.ofNat?_eq_getElem?]
  exact List.getElem?_eq_none h

/-! ## The taking of a GRANT -/

theorem takeGrant_refused {a : GrantArgs} (h : 7 < a.resource.toNat ∨ 2 < a.port.toNat) (s : State) :
    takeGrant a s = (s, .arg) := by
  obtain hres | hport := h
  · simp only [takeGrant, Resource.ofCode_eq_none hres]
  · rw [takeGrant, Port.ofNat?_eq_none hport]
    cases Resource.ofCode a.resource <;> rfl

theorem takeGrant_taken {a : GrantArgs} {r : Resource} {x : Port} (hres : Resource.all[a.resource.toNat]? = some r)
    (hport : Port.all[a.port.toNat]? = some x) (s : State) :
    takeGrant a s = ({ s with rights := s.rights.grant r x }, .done) := by
  simp only [takeGrant, Resource.ofCode_eq_getElem?, hres, Port.ofNat?_eq_getElem?, hport]

/-! ## A whole frame of GRANT (R172, R173) -/

/-- A GRANT is checked for CHIEF alone: it is accepted in every pass state (R174). -/
theorem acceptance_grant (s : State) (p : Port) (lane : Byte) :
    acceptance s p .grant lane = if s.rights.owner .chief = p then .done else .denied := by
  by_cases h : s.rights.owner .chief = p <;> simp [acceptance, hasRight, requiredResource, acceptedIn, h]

theorem exec_grant_denied {s : State} {p : Port} (a : GrantArgs) (n : Nat) (hfree : s.portFree p)
    (hright : s.rights.owner .chief ≠ p) :
    exec (.grant p (.whole a n)) s = .next (settle (s.frameEnded p .denied (statusReply s p n))) := by
  have hdenied : acceptance s p .grant (noLane a) = .denied := by rw [acceptance_grant, if_neg hright]
  have hframe := commandFrame_refused (take := takeGrant) (n := n) hfree (GrantArgs.ofBytes_toBytes a)
    (hdenied.trans_ne (by decide))
  rw [hdenied] at hframe
  exact congrArg completed hframe

theorem exec_grant {s : State} {p : Port} (a : GrantArgs) (n : Nat) (hfree : s.portFree p)
    (hright : s.rights.owner .chief = p) :
    exec (.grant p (.whole a n)) s =
      let s1 := s.mapPort p (fun q =>
        q.replied (Request.grant.code :: a.toBytes) n (statusByte s p) (statusReply s p n))
      .next (settle (endFrame p (takeGrant a s1).2 (takeGrant a s1).1)) :=
  congrArg completed
    (commandFrame_taken hfree (GrantArgs.ofBytes_toBytes a) ((acceptance_grant s p _).trans (if_pos hright)))

theorem exec_grant_refused {s : State} {p : Port} {a : GrantArgs} (n : Nat) (hfree : s.portFree p)
    (hright : s.rights.owner .chief = p) (hbad : 7 < a.resource.toNat ∨ 2 < a.port.toNat) :
    exec (.grant p (.whole a n)) s = .next (settle (s.frameEnded p .arg (statusReply s p n))) := by
  simp only [exec_grant a n hfree hright, takeGrant_refused hbad, endFrame_replied]

/-- The rights table and the ports are parts of the state apart. -/
theorem setRights_mapPort (g : Rights) (s : State) (p : Port) (f : PortState → PortState) :
    { s.mapPort p f with rights := g } = { s with rights := g }.mapPort p f := rfl

theorem exec_grant_taken {s : State} {p : Port} {a : GrantArgs} {r : Resource} {x : Port} (n : Nat)
    (hfree : s.portFree p) (hright : s.rights.owner .chief = p) (hres : Resource.all[a.resource.toNat]? = some r)
    (hport : Port.all[a.port.toNat]? = some x) :
    exec (.grant p (.whole a n)) s =
      .next (settle ({ s with rights := s.rights.grant r x }.frameEnded p .done (statusReply s p n))) := by
  rw [exec_grant a n hfree hright]
  simp only [takeGrant_taken hres hport, setRights_mapPort, endFrame_replied, State.mapPort_rights]

/-- Settles O7: the grant moves one owner of the table (R173), and a whole frame is denied without CHIEF, refused for its
arguments, or taken (R172, R173). -/
theorem grantMovesOneRight : Obligations.GrantMovesOneRight := by
  refine ⟨Rights.owner_grant, fun s p a n hfree => ⟨fun hright => ?denied, fun hright hbad => ?refused,
    fun r x hright hres hport => ?taken⟩⟩
  case denied => exact exec_grant_denied a n hfree hright
  case refused => exact exec_grant_refused n hfree hright hbad
  case taken => exact exec_grant_taken n hfree hright hres hport

end Sys2Proof.Machine
end

section
/-! What a step can do, said once: every command takes the part from state to state by the moves listed here, each with the
facts that hold as it is made. An invariant of all commands is then proved move by move. -/

namespace Sys2Proof.Machine

/-! ## The moves -/

/-- A block record changed in what the order of the window does not rest on: slot, number, positions and lanes are kept, the
state is kept or goes from FULL to HELD, and the event list stays within its length. -/
structure Block.Kept (b c : Block) : Prop where
  slot   : c.slot = b.slot
  number : c.number = b.number
  first  : c.first = b.first
  fill   : c.fill = b.fill
  state  : c.state = b.state ∨ (b.state = .full ∧ c.state = .held)
  events : b.events.length ≤ Config.maxEvents → c.events.length ≤ Config.maxEvents
  lanes  : ∀ l, (c.lanes.get l).isSome = (b.lanes.get l).isSome

/-- The changes that commands of every kind make: ports, block records, the tracker, and an entry listed where there is
room. -/
inductive Update : State → State → Prop where
  | ports (s : State) (q : PerPort PortState) : Update s { s with ports := q }
  | blocks (s : State) (f : Block → Block) (hf : ∀ b, Block.Kept b (f b)) : Update s (s.mapBlocks f)
  | track (s : State) (x : Tracker)
      (hheld : s.tracker.heldEvents.length ≤ Config.maxEvents → x.heldEvents.length ≤ Config.maxEvents)
      (hlegal : ParametersLegal s → TrackerLegal s → TrackerLegal (s.setTracker x)) : Update s (s.setTracker x)
  | list (s : State) (e : Entry) (hroom : s.catalogue.entries.length < Config.catalogueDepth) : Update s (listEntry e s)

/-- The next position counted as written, before it is reported to the tracker (R16, R19). -/
def advancePosition (s : State) : State :=
  (s.setScan { s.scan with next := s.scan.next + 1#40 }).mapBlocks (fun b =>
    if b.state = .filling then
      { b with fill := b.fill + 1, state := if b.fill + 1 = Config.blockSize then .full else .filling }
    else b)

theorem countPosition_eq (s : State) : countPosition s = trackerReport s.scan.next (advancePosition s) := rfl

/-- The changes that Scan Input makes as it acts on an entry. -/
inductive Feed : State → State → Prop where
  | update {s t : State} (h : Update s t) : Feed s t
  | scan (s : State) (x : ScanInput) (hnext : x.next = s.scan.next) (hfifo : x.fifo <:+ s.scan.fifo) :
      Feed s (s.setScan x)
  | slot (s : State) (slot : Nat) (hnone : fillingBlock s = none) (hcount : s.window.counter < Config.maxBlocks)
      (hfree : freeSlot s = some slot) : Feed s (takeSlot slot s)
  | original (s : State) (b : Block) (l : Lane) (v : Sample) (hfill : fillingBlock s = some b) :
      Feed s (writeSample s b .original l (offsetIn b s.scan.next) v)
  | count (s : State) (hfill : (fillingBlock s).isSome = true) : Feed s (advancePosition s)

/-- Any number of changes that Scan Input makes. -/
abbrev Feeds : State → State → Prop := Relation.ReflTransGen Feed

/-- The part at the end of the run-out, before the report that may end the pass (R20, R33, R39, R155). -/
def ranOut (s : State) : State :=
  let s1 := endFilling (truncatePacket s)
  { s1 with
    pass := { s1.pass with runOutEnded := true }
    tracker := s1.tracker.dropHeld
    window := { s1.window with finalBlock := (s1.window.blocks.map (fun b => b.number)).max? } }

theorem endRunOut_eq (s : State) : endRunOut s = reportReleased (ranOut s) := rfl

/-- An anchor pair without the void value. -/
abbrev SpanAnchors.Sound (a : SpanAnchors) : Prop :=
  a.anchors.left ≠ some Config.voidValue ∧ a.anchors.right ≠ some Config.voidValue

/-- A lane engine changed in keeping with the settings' ranges and, in a sound state, with the anchors' soundness. -/
structure EngineKept (s : State) (e x : LaneEngine) : Prop where
  settings : e.settings.legal → x.settings.legal
  taken    : ∀ p ∈ x.work.takenSettings, p = e.settings ∨ p ∈ e.work.takenSettings
  anchors  : WindowLegal s → AnchorsSound s → SamplesSound s → ∀ a ∈ x.work.anchors, a.Sound

/-- The moves of the part. -/
inductive Move : State → State → Prop where
  | update {s t : State} (h : Update s t) : Move s t
  | feed {s t : State} (hopen : s.scan.fifo ≠ [] ∨ s.scan.stall.waiting = true) (h : Feeds s t) : Move s t
  | ready (s : State) (r : Bool) : Move s (s.setScan { s.scan with ready := r })
  | arrived (s : State) (x : List FifoEntry) (hrun : s.pass.state = .running)
      (hlen : s.scan.fifo.length ≤ Config.fifoDepth → x.length ≤ Config.fifoDepth) :
      Move s (s.setScan { s.scan with fifo := x })
  | cursor (s : State) (p : Port) (c : Cursor)
      (h : ∀ n ∈ c.target, n ∈ s.catalogue.entries.map (fun e => e.number)) : Move s (s.setCursor p c)
  | rights (s : State) (g : Rights) : Move s { s with rights := g }
  | opened (s : State) (a : OpenArgs) (x : PassControl) (h : openParameters a = some x) : Move s (setUpPass x s)
  | abandoned (s : State) : Move s (abandonPass s)
  | restored (s : State) : Move s (restoreDefaults s)
  | reset (s : State) (chief : BitVec 2) : Move s (pinReset chief s)
  | hold (s : State) (v : Nat) (h : v ≤ Config.maxHold) : Move s { s with window := { s.window with reviewHold := v } }
  | mark (s : State) (m : Option Nat) : Move s { s with window := { s.window with releaseMark := m } }
  | closing (s : State) (h : s.pass.state = .running) : Move s { s with pass := { s.pass with state := .closing } }
  | release (s : State) : Move s (releaseRule s)
  | report (s : State) : Move s (reportReleased s)
  | empty (s : State) : Move s (endedToIdle s)
  | runOut (s : State) (h : runOutDue s = true) : Move s (ranOut s)
  | decide (s : State) (f : Entry → Entry)
      (hf : ∀ e, (f e).number = e.number ∧ (f e).start = e.start ∧ (f e).lane = e.lane ∧ (f e).kind = e.kind) :
      Move s (s.setEntries (s.catalogue.entries.map f))
  | free (s : State) (b : Block) (h : drainHead s = some b) : Move s (freeBlock b s)
  | engine (s : State) (l : Lane) (f : LaneEngine → LaneEngine) (h : EngineKept s (s.engines.get l) (f (s.engines.get l))) :
      Move s (s.mapEngine l f)
  | mended (s : State) (l : Lane) (b : Block) (o : Nat) (v : Sample) (f : LaneEngine → LaneEngine)
      (hb : b ∈ s.window.blocks) (ho : o < b.fill)
      (hv : WindowLegal s → AnchorsSound s → SamplesSound s → v ≠ Config.voidValue)
      (h : EngineKept s (s.engines.get l) (f (s.engines.get l))) :
      Move s ((writeSample s b .mended l o v).mapEngine l f)
  | sounded (s : State) (l : Lane) (b : Block) (o : Nat) (v : Sample) (hb : b ∈ s.window.blocks) (ho : o < b.fill)
      (hv : v ≠ Config.voidValue) : Move s (writeSample s b .restored l o v)

/-- Any number of moves. -/
abbrev Moves : State → State → Prop := Relation.ReflTransGen Move

theorem Update.moves {s t : State} (h : Update s t) : Moves s t := .single (.update h)

theorem Update.feeds {s t : State} (h : Update s t) : Feeds s t := .single (.update h)

/-! ## Updates and feeds -/

theorem Update.port (s : State) (p : Port) (f : PortState → PortState) : Update s (s.mapPort p f) := .ports s _

theorem Update.raise (e : Event) (s : State) : Update s (raise e s) := .ports s _

theorem Block.Kept.refl (b : Block) : Block.Kept b b :=
  ⟨rfl, rfl, rfl, rfl, .inl rfl, id, fun _ => rfl⟩

theorem Block.Kept.trans {a b c : Block} (h : Block.Kept a b) (k : Block.Kept b c) : Block.Kept a c where
  slot := k.slot.trans h.slot
  number := k.number.trans h.number
  first := k.first.trans h.first
  fill := k.fill.trans h.fill
  state := by
    obtain hs | ⟨hs, hs'⟩ := h.state <;> obtain ks | ⟨ks, ks'⟩ := k.state
    · exact .inl (ks.trans hs)
    · exact .inr ⟨hs ▸ ks, ks'⟩
    · exact .inr ⟨hs, ks.trans hs'⟩
    · exact absurd (hs'.symm.trans ks) (by decide)
  events := k.events ∘ h.events
  lanes l := (k.lanes l).trans (h.lanes l)

theorem Block.Kept.ite {c : Prop} [Decidable c] {a b : Block} (h : Block.Kept a b) : Block.Kept a (if c then b else a) := by
  split
  · exact h
  · exact .refl a

theorem Block.kept_setFilm (b : Block) (f : FilmFlag) : Block.Kept b (b.setFilm f) := by
  cases f <;> exact ⟨rfl, rfl, rfl, rfl, .inl rfl, id, fun _ => rfl⟩

theorem Block.kept_mapRecord (b : Block) (l : Lane) (f : LaneRecord → LaneRecord) : Block.Kept b (b.mapRecord l f) where
  slot := rfl
  number := rfl
  first := rfl
  fill := rfl
  state := .inl rfl
  events := id
  lanes m := by
    simp only [Block.mapRecord, PerLane.get_set]
    split
    · next h => rw [h, Option.isSome_map]
    · rfl

theorem Block.kept_mapRecords (ls : List Lane) (f : LaneRecord → LaneRecord) (b : Block) :
    Block.Kept b (ls.foldl (fun c l => c.mapRecord l f) b) := by
  induction ls generalizing b with
  | nil => exact .refl b
  | cons l ls ih => exact (Block.kept_mapRecord b l f).trans (ih _)

theorem Update.flagFilling (f : FilmFlag) (s : State) : Update s (flagFilling f s) :=
  .blocks s _ (fun b => (b.kept_setFilm f).ite)

theorem Feeds.linkFault (s : State) : Feeds s (linkFault s) :=
  (Update.flagFilling .link s).feeds.tail (.update (.raise .link _))

theorem appendEvent_length {α : Type} {es : List α} (e : α) (h : es.length ≤ Config.maxEvents) :
    (appendEvent es e).length ≤ Config.maxEvents := by
  unfold appendEvent
  split
  · next hlt => simpa using hlt
  · next hge =>
    have hpos : 0 < es.length := Nat.lt_of_lt_of_le (by decide) (Nat.not_lt.mp hge)
    simp only [List.length_append, List.length_dropLast, List.length_singleton]
    omega

theorem appendEvent_ne_nil {α : Type} (es : List α) (e : α) : appendEvent es e ≠ [] := by
  unfold appendEvent
  split <;> simp

/-! ## The tracker -/

/-- The moves that the tracker makes of itself: in tracker, block records and event sets. -/
abbrev Updates : State → State → Prop := Relation.ReflTransGen Update

theorem Updates.feeds {s t : State} (h : Updates s t) : Feeds s t := Relation.ReflTransGen.mono (fun _ _ => Feed.update) s t h

theorem Updates.moves {s t : State} (h : Updates s t) : Moves s t := Relation.ReflTransGen.mono (fun _ _ => Move.update) s t h

/-- A tracker changed in what its law does not speak of. -/
theorem Update.track_kept {s : State} {x : Tracker} (hpoint : x.point = s.tracker.point) (hhist : x.history = s.tracker.history)
    (hvalid : x.validRun = s.tracker.validRun) (hreject : x.rejectRun ≤ 3 ∨ x.rejectRun = s.tracker.rejectRun)
    (hheld : x.heldEvents = s.tracker.heldEvents) (hstart : x.heldStart = s.tracker.heldStart) :
    Update s (s.setTracker x) := by
  refine .track s x (fun h => by rwa [hheld]) (fun _ h => ?_)
  obtain ⟨h1, h2, h3, h4, h5, h6, h7⟩ := h
  refine ⟨?_, ?_, ?_, by simp only [State.setTracker_tracker]; omega, ?_, ?_, ?_⟩ <;>
    simpa only [State.setTracker_tracker, State.setTracker_pass, hpoint, hhist, hvalid, hheld, hstart]

theorem Update.placeEvent (b : Block) (pos : Position) (k : TrackerEventKind) (s : State) : Update s (placeEvent b pos k s) := by
  refine .blocks s _ (fun c => ?_)
  split
  · exact ⟨rfl, rfl, rfl, rfl, .inl rfl, appendEvent_length _, fun _ => rfl⟩
  · split
    · exact ⟨rfl, rfl, rfl, rfl, .inl rfl, id, fun _ => rfl⟩
    · exact .refl c

theorem Update.holdEvent (before : LockPoint) (pos : Position) (k : TrackerEventKind) (s : State) :
    Update s (holdEvent before pos k s) := by
  refine .track s _ (fun h => appendEvent_length _ h) (fun _ h => ?_)
  obtain ⟨h1, h2, h3, h4, h5, h6, h7⟩ := h
  refine ⟨h1, h2, h3, h4, h5, appendEvent_length _ h6, ?_⟩
  simp only [State.setTracker_tracker, appendEvent_ne_nil, false_iff]
  split
  · simp
  · next hne => exact fun hnone => hne (h7.mpr hnone)

theorem Updates.publish (before : LockPoint) (k : TrackerEventKind) (want : Position) (s : State) :
    Updates s (publish before k want s) := by
  have hset : Updates s (s.setTracker { s.tracker with lastPublished := some (publishPosition s.tracker want) }) :=
    .single (.track_kept rfl rfl rfl (.inr rfl) rfl rfl)
  obtain ⟨b, -, -, h⟩ | ⟨-, -, h⟩ | ⟨-, h⟩ := publish_cases before k want s
  · rw [h]
    exact hset.tail (.placeEvent b _ k _)
  · rw [h]
    exact hset.tail (.holdEvent before _ k _)
  · rw [h]
    exact hset

/-- The entry to HOLDOVER is made from LOCKED alone, so that S8 is present (R27, R28). -/
theorem Updates.enterHoldover {s : State} (pos : Position) (hlock : s.tracker.point.lock = .locked) :
    Updates s (enterHoldover pos s) := by
  have hset : Update s (s.setTracker
      { s.tracker with point := { s.tracker.point with lock := .holdover }, history := [], validRun := 0 }) := by
    refine .track s _ id (fun _ ht => ?_)
    obtain ⟨-, -, -, h4, h5, h6, h7⟩ := ht
    refine ⟨rfl, by simp, by simp, h4, ⟨?_, h5.2⟩, h6, h7⟩
    have hs8 : s.tracker.point.s8 ≠ none := fun hn => absurd (h5.1.mpr hn) (by rw [hlock]; decide)
    simp [hs8]
  exact .tail (.head hset (Updates.publish _ _ _ _)) (.raise _ _)

theorem Updates.rejectMark (p : Position) (s : State) : Updates s (rejectMark p s) := by
  have hset : Update s (s.setTracker { s.tracker with rejectRun := min 3 (s.tracker.rejectRun + 1) }) :=
    .track_kept rfl rfl rfl (.inl (Nat.min_le_left ..)) rfl rfl
  unfold Machine.rejectMark
  dsimp only
  split
  · next h => exact .head hset (Updates.enterHoldover _ h.1)
  · exact .single hset

theorem pushInterval_length {h : List Nat} (i : Nat) (hlen : h.length ≤ 8) :
    (pushInterval h i).length = min 8 (h.length + 1) := by
  unfold pushInterval
  split <;> simp <;> omega

theorem pushInterval_range {h : List Nat} {i lo hi : Nat} (hh : ∀ j ∈ h, lo ≤ j ∧ j ≤ hi) (hi' : lo ≤ i ∧ i ≤ hi) :
    ∀ j ∈ pushInterval h i, lo ≤ j ∧ j ≤ hi := by
  intro j hj
  unfold pushInterval at hj
  obtain hj | hj := List.mem_append.mp hj
  · split at hj
    · exact hh j hj
    · exact hh j (List.mem_of_mem_drop hj)
  · rw [List.mem_singleton.mp hj]
    exact hi'

/-- The sum of intervals that lie within limits lies within their multiples. -/
theorem sum_range_of_forall {h : List Nat} {lo hi : Nat} (hh : ∀ j ∈ h, lo ≤ j ∧ j ≤ hi) :
    h.length * lo ≤ h.sum ∧ h.sum ≤ h.length * hi := by
  constructor
  · simpa using List.card_nsmul_le_sum h lo (fun j hj => (hh j hj).1)
  · simpa using List.sum_le_card_nsmul h hi (fun j hj => (hh j hj).2)

/-- An accepted interval lies within the limits of the pass (R26). -/
theorem Updates.acceptMark (p : Position) {i : Nat} {s : State} (hlo : s.pass.perfMin ≤ i) (hhi : i ≤ s.pass.perfMax) :
    Updates s (acceptMark p i s) := by
  have hlegal : TrackerLegal s →
      (pushInterval s.tracker.history i).length = min 8 (s.tracker.validRun + 1) ∧
        ∀ j ∈ pushInterval s.tracker.history i, s.pass.perfMin ≤ j ∧ j ≤ s.pass.perfMax := by
    rintro ⟨h1, h2, h3, -⟩
    exact ⟨h1 ▸ pushInterval_length i h2, pushInterval_range h3 ⟨hlo, hhi⟩⟩
  unfold Machine.acceptMark
  dsimp only
  split
  · next hrun =>
    have hset : Update s (s.setTracker
        { s.tracker with
          point := ⟨.locked, some (pushInterval s.tracker.history i).sum⟩, lastMark := some p, rejectRun := 0
          history := pushInterval s.tracker.history i, validRun := min 8 (s.tracker.validRun + 1) }) := by
      refine .track s _ id (fun hp ht => ?_)
      obtain ⟨hlen, hrange⟩ := hlegal ht
      obtain ⟨-, -, -, -, -, h6, h7⟩ := ht
      obtain ⟨-, hp1, -, hp2, -⟩ := hp
      refine ⟨hlen.symm, hlen.trans_le (Nat.min_le_left ..), hrange, Nat.zero_le _, ⟨by simp, ?_⟩, h6, h7⟩
      intro v hv
      cases hv
      have hsum := sum_range_of_forall hrange
      rw [hlen, hrun] at hsum
      omega
    split
    · exact .head hset (Updates.publish _ _ _ _)
    · exact .tail (.head hset (Updates.publish _ _ _ _)) (.raise _ _)
  · refine .single (.track s _ id (fun hp ht => ?_))
    obtain ⟨hlen, hrange⟩ := hlegal ht
    obtain ⟨-, -, -, -, h5, h6, h7⟩ := ht
    exact ⟨hlen.symm, hlen.trans_le (Nat.min_le_left ..), hrange, Nat.zero_le _, h5, h6, h7⟩

theorem Updates.trackerMark (p : Position) (s : State) : Updates s (trackerMark p s) := by
  unfold Machine.trackerMark
  dsimp only
  split
  · exact .single (.track_kept rfl rfl rfl (.inr rfl) rfl rfl)
  · split
    · exact Updates.rejectMark p s
    · next hlo =>
      split
      · next hhi => exact Updates.acceptMark p (by omega) (by omega)
      · have hset : Update s (s.setTracker { s.tracker with lastMark := some p, history := [], validRun := 0 }) := by
          refine .track s _ id (fun _ ht => ?_)
          obtain ⟨-, -, -, h4, h5, h6, h7⟩ := ht
          exact ⟨rfl, by simp, by simp, h4, h5, h6, h7⟩
        exact .head hset (Updates.rejectMark p _)

theorem Updates.trackerReport (q : Position) (s : State) : Updates s (trackerReport q s) := by
  unfold Machine.trackerReport
  split
  · next h =>
    refine Updates.enterHoldover q ?_
    unfold timesOut at h
    split at h
    · cases h
    · simpa using (Bool.and_eq_true_iff.mp h).1
  · exact .refl

theorem Updates.trackerSlip (p : Position) (s : State) : Updates s (trackerSlip p s) :=
  .single (.track_kept rfl rfl rfl (.inr rfl) rfl rfl)

end Sys2Proof.Machine
end

section
/-! Scan Input acts on an entry by feeds alone: securing a block, writing positions, unpacking, judging a header, ending a
packet, and the work taken up after a stall (R4 to R19). -/

namespace Sys2Proof.Machine

/-! ## The state that a run of work leaves -/

/-- The state that work on an entry leaves, whether it is done, stalled or ended. -/
def Run.state : Run → State
  | .done s => s
  | .stalled s _ => s
  | .ended s => s

/-- Work on an entry that starts from a state and goes on by feeds. -/
abbrev Run.Fed (s : State) (r : Run) : Prop := Feeds s r.state

theorem Run.Fed.andThen {s : State} {r : Run} {f : State → Run} (h : r.Fed s) (hf : ∀ t, (f t).Fed t) :
    (r.andThen f).Fed s := by
  cases r with
  | done t => exact Relation.ReflTransGen.trans h (hf t)
  | stalled t n => exact h
  | ended t => exact h

/-- A change of Scan Input that keeps the next position and the FIFO. -/
theorem Feeds.scan {s : State} {x : ScanInput} (hnext : x.next = s.scan.next) (hfifo : x.fifo = s.scan.fifo) :
    Feeds s (s.setScan x) :=
  .single (.scan s x hnext (hfifo ▸ List.suffix_refl _))

/-- Feeds that follow a change of Scan Input. -/
theorem Feeds.of_scan {s t : State} {x : ScanInput} (h : Feeds (s.setScan x) t) (hnext : x.next = s.scan.next)
    (hfifo : x.fifo = s.scan.fifo) : Feeds s t :=
  .trans (Feeds.scan hnext hfifo) h

theorem Feeds.raise (e : Event) (s : State) : Feeds s (raise e s) := (Update.raise e s).feeds

theorem fillingBlock_isSome_iff {s : State} :
    (fillingBlock s).isSome = true ↔ ∃ b ∈ s.window.blocks, b.state = .filling := by
  simp [fillingBlock, List.find?_isSome]

/-! ## Securing a block -/

theorem Feeds.endInput (s : State) : Feeds s (endInput s) := Feeds.of_scan (Feeds.raise _ _) rfl rfl

theorem Feeds.beginStall (s : State) : Feeds s (beginStall s) := Feeds.of_scan (Feeds.raise _ _) rfl rfl

theorem secure_fed (s : State) : (secure s).Fed s := by
  obtain ⟨-, h⟩ | ⟨-, -, h⟩ | ⟨-, -, -, h⟩ | ⟨slot, hnone, hcount, hfree, h⟩ := secure_cases s <;> rw [h]
  · exact .refl
  · exact Feeds.endInput s
  · exact Feeds.beginStall s
  · exact .single (.slot s slot hnone hcount hfree)

/-- Where securing succeeds a block is FILLING. -/
theorem filling_of_secure {s t : State} (h : secure s = .done t) : (fillingBlock t).isSome = true := by
  obtain ⟨hfill, hs⟩ | ⟨-, -, hs⟩ | ⟨-, -, -, hs⟩ | ⟨slot, -, -, -, hs⟩ := secure_cases s <;> rw [hs] at h <;> cases h
  · exact hfill
  · exact fillingBlock_isSome_iff.mpr ⟨securedBlock s slot, by simp [takeSlot], rfl⟩

/-! ## Writing positions -/

theorem writeOriginal_cases (l : Lane) (v : Sample) (s : State) :
    (fillingBlock s = none ∧ writeOriginal l v s = s) ∨
      ∃ b, fillingBlock s = some b ∧ writeOriginal l v s = writeSample s b .original l (offsetIn b s.scan.next) v := by
  unfold writeOriginal
  split
  · next b h => exact .inr ⟨b, h, rfl⟩
  · next h => exact .inl ⟨h, rfl⟩

/-- A written sample changes the memory alone. -/
theorem writeOriginal_frame (l : Lane) (v : Sample) (s : State) :
    ∃ m, writeOriginal l v s = s.setMemory m := by
  obtain ⟨-, h⟩ | ⟨b, -, h⟩ := writeOriginal_cases l v s
  · exact ⟨s.window.memory, h⟩
  · exact ⟨_, h⟩

theorem Feeds.writeOriginal (l : Lane) (v : Sample) (s : State) : Feeds s (writeOriginal l v s) := by
  obtain ⟨-, h⟩ | ⟨b, hb, h⟩ := writeOriginal_cases l v s <;> rw [h]
  exact .single (.original s b l v hb)

/-- The state after a void value on each of some lanes at the next position. -/
theorem foldl_writeOriginal_frame (v : Sample) (ls : List Lane) (s : State) :
    ∃ m, ls.foldl (fun t l => writeOriginal l v t) s = s.setMemory m := by
  induction ls generalizing s with
  | nil => exact ⟨s.window.memory, rfl⟩
  | cons l ls ih =>
    obtain ⟨m, h⟩ := writeOriginal_frame l v s
    obtain ⟨m', h'⟩ := ih (s.setMemory m)
    exact ⟨m', by rw [List.foldl_cons, h, h']; rfl⟩

theorem Feeds.foldl_writeOriginal (v : Sample) (ls : List Lane) (s : State) :
    Feeds s (ls.foldl (fun t l => Machine.writeOriginal l v t) s) := by
  induction ls generalizing s with
  | nil => exact .refl
  | cons l ls ih => exact .trans (Feeds.writeOriginal l v s) (ih _)

theorem Feeds.countPosition {s : State} (h : (fillingBlock s).isSome = true) : Feeds s (countPosition s) :=
  .head (.count s h) (Updates.trackerReport _ _).feeds

theorem Feeds.clearLanesWritten (s : State) : Feeds s (clearLanesWritten s) := Feeds.scan rfl rfl

theorem fillingBlock_setMemory (s : State) (m : WindowMemory) : fillingBlock (s.setMemory m) = fillingBlock s := rfl

theorem fillingBlock_flagFilling_isSome (f : FilmFlag) (s : State) :
    (fillingBlock (flagFilling f s)).isSome = (fillingBlock s).isSome := by
  have hstate : ∀ b : Block, (if b.state = .filling then b.setFilm f else b).state = b.state := fun b => by
    split
    · cases f <;> rfl
    · rfl
  rw [Bool.eq_iff_iff, fillingBlock_isSome_iff, fillingBlock_isSome_iff]
  simp only [flagFilling, State.mapBlocks_blocks, List.mem_map, exists_exists_and_eq_and, hstate]

/-- One void position of a fill, its block secured. -/
theorem Feeds.fillPosition (f : FilmFlag) {s : State} (h : (fillingBlock s).isSome = true) :
    Feeds s (Machine.clearLanesWritten (Machine.countPosition (Machine.flagFilling f (writeVoids s)))) := by
  obtain ⟨m, hm⟩ := foldl_writeOriginal_frame Config.voidValue
    ((activeLanes s).drop ((s.scan.context.map (fun c => c.lanesWritten)).getD 0)) s
  have hvoids : Feeds s (writeVoids s) := Feeds.foldl_writeOriginal _ _ s
  have hfill : (fillingBlock (Machine.flagFilling f (writeVoids s))).isSome = true := by
    rw [fillingBlock_flagFilling_isSome]
    unfold writeVoids
    dsimp only
    rwa [hm, fillingBlock_setMemory]
  exact .trans (.trans (.trans hvoids (Update.flagFilling f _).feeds) (Feeds.countPosition hfill))
    (Feeds.clearLanesWritten _)

theorem fillVoids_fed (f : FilmFlag) (n : Nat) (s : State) : (fillVoids f n s).Fed s := by
  induction n generalizing s with
  | zero => exact .refl
  | succ n ih =>
    have hsecure := secure_fed s
    rw [fillVoids]
    cases h : secure s with
    | done t =>
      rw [h] at hsecure
      exact .trans hsecure (.trans (Feeds.fillPosition f (filling_of_secure h)) (Feeds.of_scan (ih _) rfl rfl))
    | stalled t k =>
      rw [h] at hsecure
      exact hsecure
    | ended t =>
      rw [h] at hsecure
      exact hsecure

/-! ## Unpacking -/

theorem Feeds.placeSample (c : PacketContext) (bits : List Bool) {s : State} (h : (fillingBlock s).isSome = true) :
    Feeds s (placeSample c bits s) := by
  unfold Machine.placeSample
  split
  · exact .refl
  · next l _ =>
    obtain ⟨m, hm⟩ := writeOriginal_frame l (originalSample s.pass.width bits) s
    have hwrite := Feeds.writeOriginal l (originalSample s.pass.width bits) s
    rw [hm] at hwrite
    dsimp only
    rw [hm]
    split
    · exact .trans hwrite (Feeds.scan rfl rfl)
    · exact .trans hwrite (Feeds.of_scan (Feeds.countPosition h) rfl rfl)

theorem unpackBits_fed (bits : List Bool) (k : Nat) (s : State) : (unpackBits bits k s).Fed s := by
  induction bits generalizing k s with
  | nil => exact .refl
  | cons bit rest ih =>
    rw [unpackBits]
    cases hc : s.scan.context with
    | none => exact .refl
    | some c =>
      dsimp only
      split
      · exact .refl
      · split
        · exact Feeds.of_scan (ih _ _) rfl rfl
        · have hsecure := secure_fed s
          cases h : secure s with
          | done t =>
            rw [h] at hsecure
            exact .trans hsecure (.trans (Feeds.placeSample _ _ (filling_of_secure h)) (ih _ _))
          | stalled t n =>
            rw [h] at hsecure
            exact hsecure
          | ended t =>
            rw [h] at hsecure
            exact hsecure

theorem unpackWord_fed (w : Word32) (k : Nat) (s : State) : (unpackWord w k s).Fed s := unpackBits_fed _ _ _

/-! ## Headers -/

theorem Feeds.takeWordA (w : Word32) (s : State) : Feeds s (takeWordA w s) := Feeds.scan rfl rfl

theorem Feeds.openPacket (a : Word32) (s : State) : Feeds s (openPacket a s) := Feeds.scan rfl rfl

theorem Feeds.dropHeader (x : PacketState) (s : State) : Feeds s (dropHeader x s) :=
  Feeds.of_scan (Feeds.linkFault _) rfl rfl

theorem room_of_not_full {s : State} (h : ¬catalogueFull s = true) :
    s.catalogue.entries.length < Config.catalogueDepth := by
  simpa [catalogueFull] using h

theorem Feeds.listGap (d : Nat) (s : State) : Feeds s (listGap d s) := by
  unfold Machine.listGap
  split
  · refine .tail (.single (.update (.blocks s _ (fun b => ?_)))) (.update (.raise _ _))
    exact (b.kept_mapRecords _ _).ite
  · next h => exact (Update.list s _ (room_of_not_full h)).feeds

theorem Feeds.judgeSlip (x y : Word32) (s : State) : Feeds s (judgeSlip x y s) := by
  unfold Machine.judgeSlip
  dsimp only
  split
  · exact .trans (Update.flagFilling _ _).feeds (Updates.trackerSlip _ _).feeds
  · next h =>
    exact .trans (Update.list s _ (room_of_not_full h)).feeds
      (.trans (Update.flagFilling _ _).feeds (Updates.trackerSlip _ _).feeds)

theorem judgeHeader_fed (a b : Word32) (s : State) : (judgeHeader a b s).Fed s := by
  unfold judgeHeader
  dsimp only
  split
  · exact Feeds.openPacket a s
  · split
    · have hgap : Feeds s ((Machine.listGap (b - s.scan.next.setWidth 32).toInt.toNat s).setFill
          (b - s.scan.next.setWidth 32).toInt.toNat) := .trans (Feeds.listGap _ s) (Feeds.scan rfl rfl)
      exact Run.Fed.andThen (.trans hgap (fillVoids_fed _ _ _)) (fun t => Feeds.openPacket a t)
    · exact .trans (Feeds.judgeSlip _ _ s) (Feeds.openPacket a _)

theorem takeWordB_fed (b : Word32) (s : State) : (takeWordB b s).Fed s := by
  unfold takeWordB
  split
  · exact Feeds.dropHeader _ s
  · split
    · exact (secure_fed s).andThen (judgeHeader_fed _ b)
    · exact Feeds.dropHeader _ s

/-! ## Entries -/

theorem Feeds.closePacket (s : State) : Feeds s (closePacket s) := Feeds.scan rfl rfl

theorem faultFill_fed (s : State) : (faultFill s).Fed s := fillVoids_fed _ _ s

theorem continueEntry_fed (e : FifoEntry) (bits : Nat) (s : State) : (continueEntry e bits s).Fed s := by
  unfold continueEntry
  split
  · split
    · exact takeWordB_fed _ s
    · exact (fillVoids_fed _ _ s).andThen (fun t => Feeds.openPacket _ t)
    · exact .refl
  · exact (faultFill_fed s).andThen (fun t => Feeds.takeWordA _ t)
  · exact (faultFill_fed s).andThen (fun t => Feeds.closePacket t)
  · exact unpackWord_fed _ _ s
  · exact .refl

theorem Feeds.setFill (s : State) (n : Nat) : Feeds s (s.setFill n) := Feeds.scan rfl rfl

theorem actHead_fed (e : FifoEntry) (s : State) : (actHead e s).Fed s := by
  unfold actHead
  split
  · exact Feeds.takeWordA _ s
  · exact Feeds.takeWordA _ s
  · exact takeWordB_fed _ s
  · exact .trans (.trans (Feeds.setFill s _) (Feeds.raise _ _)) (continueEntry_fed e 0 _)
  · exact .trans (Feeds.setFill s _) (continueEntry_fed e 0 _)

theorem actData_fed (e : FifoEntry) (s : State) : (actData e s).Fed s := by
  unfold actData
  split
  · split
    · exact Feeds.of_scan (unpackWord_fed _ _ _) rfl rfl
    · exact Feeds.linkFault s
  · exact Feeds.linkFault s
  · exact .refl
  · exact .refl
  · exact Feeds.linkFault s
  · exact Feeds.dropHeader _ s

theorem actMark_fed (e : FifoEntry) (s : State) : (actMark e s).Fed s := by
  have hopen : ∀ c : Option PacketContext, Run.Fed s (match c with
      | some c => if e.word.toNat ≤ c.count then .done (trackerMark (c.first + e.word.setWidth 40) s) else .done (linkFault s)
      | none => .done (linkFault s)) := by
    intro c
    split
    · split
      · exact (Updates.trackerMark _ s).feeds
      · exact Feeds.linkFault s
    · exact Feeds.linkFault s
  unfold actMark
  split
  · exact hopen _
  · exact hopen _
  · exact .refl
  · exact Feeds.linkFault s
  · exact Feeds.dropHeader _ s

theorem actEnd_fed (e : FifoEntry) (s : State) : (actEnd e s).Fed s := by
  unfold actEnd
  split
  · dsimp only
    split
    · exact .trans (Feeds.setFill s _) (continueEntry_fed e 0 _)
    · exact .trans (.trans (Feeds.setFill s _) (Feeds.raise _ _)) (continueEntry_fed e 0 _)
  · exact .trans (Feeds.setFill s _) (continueEntry_fed e 0 _)
  · exact Feeds.scan rfl rfl
  · exact Feeds.linkFault s
  · exact Feeds.dropHeader _ s

theorem actEntry_fed (e : FifoEntry) (s : State) : (actEntry e s).Fed s := by
  unfold actEntry
  split
  · exact actHead_fed e s
  · exact actData_fed e s
  · exact actMark_fed e s
  · exact actEnd_fed e s

theorem Feeds.actLoss (s : State) : Feeds s (actLoss s) := by
  have hflag := (Update.flagFilling .link s).feeds
  unfold Machine.actLoss
  dsimp only
  split
  · exact .trans hflag (Feeds.scan rfl rfl)
  · exact .trans hflag (Feeds.scan rfl rfl)
  all_goals exact hflag

theorem Feeds.finishEntry (e : FifoEntry) {s : State} {r : Run} (h : r.Fed s) : Feeds s (finishEntry e r) := by
  cases r with
  | done t =>
    have hset : Feeds s (t.setScan { t.scan with suspended := none }) := .trans h (Feeds.scan rfl rfl)
    rw [Machine.finishEntry]
    dsimp only
    split
    · exact hset.trans (Feeds.actLoss _)
    · exact hset
  | stalled t n => exact .trans h (Feeds.scan rfl rfl)
  | ended t => exact h

theorem Feeds.takeEntry (e : FifoEntry) (s : State) : Feeds s (takeEntry e s) := by
  unfold Machine.takeEntry
  split
  · exact .refl
  · exact Feeds.finishEntry e (actEntry_fed e s)

/-- The taking of the oldest entry is a run of feeds from a FIFO that is not empty. -/
theorem takeOldest_moves (g : Tag) (s : State) : Moves s (takeOldest g s) := by
  obtain h | ⟨e, rest, hfifo, -, -, h⟩ := takeOldest_cases g s
  · rw [h]
  · rw [h]
    have hgone : Feed s (s.setScan { s.scan with fifo := rest }) :=
      .scan s _ rfl (by rw [hfifo]; exact List.suffix_cons e rest)
    exact .single (.feed (.inl (by simp [hfifo])) (.head hgone (Feeds.takeEntry e _)))

/-- The end of a stall is a run of feeds from a stall. -/
theorem resumeStall_moves (s : State) : Moves s (resumeStall s) := by
  unfold resumeStall
  split
  · next hwait =>
    have hclear : Feeds s (s.setScan { s.scan with stall := Stall.clear }) := Feeds.scan rfl rfl
    dsimp only
    split
    · exact .single (.feed (.inr hwait) hclear)
    · exact .single (.feed (.inr hwait) (hclear.trans (Feeds.finishEntry _ (continueEntry_fed _ _ _))))
  · exact .refl

end Sys2Proof.Machine
end

section
/-! The values that the mend and hiss stages write are not the void value: positions and their offsets in a block, anchors, the
bridge, the void guard and the restored value (R57, R93 to R96, R124). -/

namespace Sys2Proof.Machine

/-! ## Positions of a block -/

/-- A position that the numbering puts in block k lies less than a block past that block's first position (R57). -/
theorem offset_of_blockNumberOf {s : State} {p : Position} {k : Nat} (h : blockNumberOf s p = (k : Int)) :
    ((p - firstPositionOf s k).toNat : Int) = passOffset s p - 2048 * k ∧ (p - firstPositionOf s k).toNat < 2048 := by
  have hd : (p - s.pass.start).toInt / 2048 = (k : Int) := h
  have hrange := BitVec.toInt_eq_toNat_cond (p - s.pass.start)
  have hlt := (p - s.pass.start).isLt
  have hsub : p - firstPositionOf s k = (p - s.pass.start) - BitVec.ofNat 40 (2048 * k) := by
    simp only [firstPositionOf, Config.blockSize, sub_add_eq_sub_sub]
  have hoff : passOffset s p = (p - s.pass.start).toInt := rfl
  rw [hsub, hoff, BitVec.toNat_sub, BitVec.toNat_ofNat]
  generalize (p - s.pass.start).toInt = d at *
  generalize (p - s.pass.start).toNat = n at *
  split at hrange <;> omega

theorem mem_of_blockHolding {s : State} {p : Position} {b : Block} (h : blockHolding s p = some b) :
    b ∈ s.window.blocks ∧ blockNumberOf s p = (b.number : Int) := by
  refine ⟨List.mem_of_find?_eq_some h, ?_⟩
  have := List.find?_some h
  simp only [beq_iff_eq] at this
  exact this.symm

theorem mem_of_blockNumbered {s : State} {k : Nat} {b : Block} (h : blockNumbered s k = some b) :
    b ∈ s.window.blocks ∧ b.number = k :=
  ⟨List.mem_of_find?_eq_some h, by simpa using List.find?_some h⟩

theorem offsetIn_lt_of_holding {s : State} {p : Position} {b : Block} (hw : WindowLegal s)
    (h : blockHolding s p = some b) : offsetIn b p < Config.blockSize := by
  obtain ⟨hb, hk⟩ := mem_of_blockHolding h
  obtain ⟨-, -, hfirst, -⟩ := hw.1 b hb
  rw [offsetIn, hfirst]
  exact (offset_of_blockNumberOf hk).2

theorem Block.fillLegal.le {b : Block} (h : b.fillLegal) : b.fill ≤ Config.blockSize := by
  unfold Block.fillLegal at h
  split at h <;> omega

/-! ## Addresses -/

/-- A cell's array is its address over 2048, modulo 3. -/
theorem sampleAddress_array (slot : Nat) (a : SampleArray) (l : Lane) {o : Nat} (h : o < Config.blockSize) :
    sampleAddress slot a l o / Config.blockSize % 3 = a.toNat := by
  have ha : a.toNat < 3 := by cases a <;> decide
  simp only [sampleAddress, Config.blockSize] at *
  omega

theorem readSample_ne_void {s : State} {b : Block} {a : SampleArray} {l : Lane} {o : Nat} (hs : SamplesSound s)
    (ho : o < Config.blockSize) (ha : a ≠ .original) : readSample s b a l o ≠ Config.voidValue := by
  refine hs _ ?_
  rw [sampleAddress_array _ _ _ ho]
  cases a with
  | original => exact absurd rfl ha
  | mended => decide
  | restored => decide

theorem mendedAt_ne_void {s : State} (hw : WindowLegal s) (hs : SamplesSound s) (l : Lane) (p : Position) :
    mendedAt s l p ≠ some Config.voidValue := by
  unfold mendedAt
  cases h : blockHolding s p with
  | none => simp
  | some b =>
    simpa using readSample_ne_void hs (offsetIn_lt_of_holding hw h) (by decide)

/-! ## Treatments -/

theorem mem_of_highest {ts : List Treatment} {t : Treatment} (h : highest ts = some t) : t ∈ ts := by
  have hfold : ∀ (us : List Treatment) (best : Option Treatment),
      us.foldl (fun best t =>
        match best with
        | none => some t
        | some b => if b.key.kind.precedence < t.key.kind.precedence then some t else some b) best = some t →
      best = some t ∨ t ∈ us := by
    intro us
    induction us with
    | nil => exact fun best hb => .inl hb
    | cons u us ih =>
      intro best hb
      rw [List.foldl_cons] at hb
      obtain hb | hb := ih _ hb
      · split at hb
        · cases hb
          exact .inr (List.mem_cons_self ..)
        · split at hb
          · cases hb
            exact .inr (List.mem_cons_self ..)
          · exact .inl hb
      · exact .inr (List.mem_cons_of_mem _ hb)
  obtain h | h := hfold ts none h
  · cases h
  · exact h

/-- The treatment covers the position. -/
def Treatment.Covers (s : State) (p : Position) (t : Treatment) : Prop :=
  covers (passOffset s t.key.start) t.span (passOffset s p) = true

theorem covers_of_mem_entryTreatments {s : State} {l : Lane} {p : Position} {t : Treatment}
    (h : t ∈ entryTreatments s l p) : t.Covers s p := by
  obtain ⟨e, he, ht⟩ := List.mem_filterMap.mp h
  have hcov := (Bool.and_eq_true_iff.mp (List.mem_filter.mp he).2).2
  unfold Entry.treatment at ht
  unfold entryCovers at hcov
  split at ht
  · next n d hn hd =>
    cases ht
    rw [hn] at hcov
    exact hcov
  · cases ht

theorem covers_of_mem_carriedTreatments {s : State} {l : Lane} {p : Position} {t : Treatment}
    (h : t ∈ carriedTreatments s l p) : t.Covers s p := by
  obtain ⟨c, hc, rfl⟩ := List.mem_map.mp h
  exact (List.mem_filter.mp hc).2

/-- A covered position lies no farther past the start of the span than the span is long. -/
theorem distance_le_of_covers {s : State} {start p : Position} {n : Nat}
    (h : covers (passOffset s start) n (passOffset s p) = true) : (distance start p).toNat ≤ n := by
  simp only [covers, Bool.and_eq_true, decide_eq_true_eq] at h
  obtain ⟨hlo, hhi⟩ := h
  have hsub : p - start = (p - s.pass.start) - (start - s.pass.start) := by abel
  have hd : distance start p = (passOffset s p - passOffset s start).bmod (2 ^ 40) := by
    rw [distance, hsub, BitVec.toInt_sub]
    rfl
  have hp := BitVec.toInt_eq_toNat_cond (p - s.pass.start)
  have hs := BitVec.toInt_eq_toNat_cond (start - s.pass.start)
  have hplt := (p - s.pass.start).isLt
  have hslt := (start - s.pass.start).isLt
  have ep : passOffset s p = (p - s.pass.start).toInt := rfl
  have es : passOffset s start = (start - s.pass.start).toInt := rfl
  rw [hd]
  rw [Int.bmod_def]
  split <;> omega

/-- The bridge lies between its anchors (R94). -/
theorem bridge_range (a b : Int) {n i : Nat} (h : i ≤ n) : min a b ≤ bridge a b n i ∧ bridge a b n i ≤ max a b := by
  have hN : (0 : Int) < (n : Int) + 1 := by omega
  have hc0 : (0 : Int) ≤ ((n + 1) / 2 : Nat) := Int.natCast_nonneg _
  have hcN : (((n + 1) / 2 : Nat) : Int) < (n : Int) + 1 := by omega
  have hjn : (i : Int) + 1 ≤ (n : Int) + 1 := by omega
  have hlo : min a b - a ≤ ((b - a) * ((i : Int) + 1) + ((n + 1) / 2 : Nat)) / ((n : Int) + 1) := by
    refine Int.le_ediv_of_mul_le hN ?_
    obtain hab | hab := le_total a b
    · rw [min_eq_left hab, sub_self, zero_mul]
      exact add_nonneg (mul_nonneg (by omega) (by omega)) hc0
    · rw [min_eq_right hab]
      have := mul_le_mul_of_nonpos_left hjn (sub_nonpos.mpr hab)
      omega
  have hhi : ((b - a) * ((i : Int) + 1) + ((n + 1) / 2 : Nat)) / ((n : Int) + 1) < max a b - a + 1 := by
    refine Int.ediv_lt_of_lt_mul hN ?_
    rw [add_mul, one_mul]
    obtain hab | hab := le_total a b
    · rw [max_eq_right hab]
      exact add_lt_add_of_le_of_lt (mul_le_mul_of_nonneg_left hjn (by omega)) hcN
    · rw [max_eq_left hab, sub_self, zero_mul]
      exact add_lt_add_of_le_of_lt (mul_nonpos_of_nonpos_of_nonneg (by omega) (by omega)) hcN
  unfold bridge
  omega

theorem Sample.ne_void_iff (v : Sample) : v ≠ Config.voidValue ↔ v.toInt ≠ -8388608 := by
  have : Config.voidValue.toInt = -8388608 := by decide
  rw [← this, ne_eq, ne_eq, BitVec.toInt_inj]

/-- A number within full scale is stored as itself (Conventions 3.3). -/
theorem toInt_ofInt_of_fullScale {x : Int} (h : -8388607 ≤ x ∧ x ≤ 8388607) : (BitVec.ofInt 24 x).toInt = x :=
  BitVec.toInt_ofInt_eq_self (by decide) (by omega) (by omega)

theorem ofInt_ne_void {x : Int} (h : -8388607 ≤ x ∧ x ≤ 8388607) : BitVec.ofInt 24 x ≠ Config.voidValue := by
  rw [Sample.ne_void_iff, toInt_ofInt_of_fullScale h]
  omega

theorem fullScale_of_ne_void {v : Sample} (h : v ≠ Config.voidValue) : -8388607 ≤ v.toInt ∧ v.toInt ≤ 8388607 := by
  have hne := (Sample.ne_void_iff v).mp h
  have hlo := v.le_toInt
  have hhi := v.toInt_lt
  omega

/-! ## The mended value -/

theorem voidGuard_ne_void {s : State} (hw : WindowLegal s) (hs : SamplesSound s) (l : Lane) (p : Position) :
    voidGuard s l p ≠ Config.voidValue := by
  have hzero : (0#24 : Sample) ≠ Config.voidValue := by decide
  unfold voidGuard
  split
  · exact hzero
  · have hmended := mendedAt_ne_void hw hs l (p - 1#40)
    cases h : mendedAt s l (p - 1#40) with
    | none => exact hzero
    | some v => exact fun hv => hmended (h.trans (congrArg some hv))

theorem keptOriginal_ne_void {s : State} (hw : WindowLegal s) (hs : SamplesSound s) (l : Lane) (p : Position) :
    keptOriginal s l p ≠ Config.voidValue := by
  unfold keptOriginal
  split
  · split
    · exact voidGuard_ne_void hw hs l p
    · next hv => exact hv
  · decide

theorem readAnchors_sound {s : State} (hw : WindowLegal s) (hs : SamplesSound s) (l : Lane) (start : Position) (n : Nat) :
    (readAnchors s l start n).left ≠ some Config.voidValue ∧ (readAnchors s l start n).right ≠ some Config.voidValue := by
  unfold readAnchors
  dsimp only
  generalize (if inPass s (start + BitVec.ofNat 40 n) = true then originalAt s l (start + BitVec.ofNat 40 n) else none) = o
  have hright : o.filter (fun v => v != Config.voidValue) ≠ some Config.voidValue := by
    cases o <;> simp [Option.filter]
  refine ⟨?_, hright⟩
  split
  · exact hright
  · have hmended := mendedAt_ne_void hw hs l (start - 1#40)
    cases h : mendedAt s l (start - 1#40) with
    | none => exact hright
    | some v => exact fun hv => hmended (h.trans hv)

theorem mem_learnAnchors {s : State} {l : Lane} {known : List SpanAnchors} {ts : List Treatment} {a : SpanAnchors}
    (h : a ∈ learnAnchors s l known ts) :
    a ∈ known ∨ ∃ start span, a.anchors = readAnchors s l start span := by
  induction ts generalizing known with
  | nil => exact .inl h
  | cons t ts ih =>
    rw [learnAnchors] at h
    split at h
    · exact ih h
    · obtain h | h := ih h
      · obtain h | h := List.mem_append.mp h
        · exact .inl h
        · exact .inr ⟨_, _, by rw [List.mem_singleton.mp h]⟩
      · exact .inr h

theorem learnAnchors_sound {s : State} (hw : WindowLegal s) (hs : SamplesSound s) {l : Lane} {known : List SpanAnchors}
    (hk : ∀ a ∈ known, a.Sound) (ts : List Treatment) : ∀ a ∈ learnAnchors s l known ts, a.Sound := by
  intro a ha
  obtain ha | ⟨start, span, ha⟩ := mem_learnAnchors ha
  · exact hk a ha
  · rw [SpanAnchors.Sound, ha]
    exact readAnchors_sound hw hs l start span

theorem anchorsOf_sound {s : State} (hw : WindowLegal s) (hs : SamplesSound s) {l : Lane} {known : List SpanAnchors}
    (hk : ∀ a ∈ known, a.Sound) (t : Treatment) :
    (anchorsOf s l known t).left ≠ some Config.voidValue ∧ (anchorsOf s l known t).right ≠ some Config.voidValue := by
  unfold anchorsOf
  split
  · next a ha => exact hk a (List.mem_of_find?_eq_some ha)
  · exact readAnchors_sound hw hs l _ _

theorem treatedValue_ne_void {s : State} (hw : WindowLegal s) (hs : SamplesSound s) {l : Lane} {p : Position}
    {t : Treatment} (ht : t.Covers s p) {a : Anchors} (ha : a.left ≠ some Config.voidValue ∧ a.right ≠ some Config.voidValue) :
    treatedValue s l p t a ≠ Config.voidValue := by
  obtain ⟨hl, hr⟩ := ha
  unfold treatedValue
  split
  · exact keptOriginal_ne_void hw hs l p
  · next x y _ hx hy =>
    have hbx := fullScale_of_ne_void (v := x) (fun h => hl (hx.trans (congrArg some h)))
    have hby := fullScale_of_ne_void (v := y) (fun h => hr (hy.trans (congrArg some h)))
    have hbridge := bridge_range x.toInt y.toInt (distance_le_of_covers ht)
    exact ofInt_ne_void (by omega)
  · next x _ hx _ => exact fun h => hl (hx.trans (congrArg some h))
  · next x _ hx => exact fun h => hl (hx.trans (congrArg some h))
  · decide
  · decide

/-! ## The restored value -/

/-- The restored value of a position is the clamped sum, as it is stored (R124). -/
theorem hissPosition_toInt_range (q : LaneSettings) (y : Int) (x : HissState) :
    -8388607 ≤ (hissPosition q y x).1.toInt ∧ (hissPosition q y x).1.toInt ≤ 8388607 := by
  have h : ∀ z, -8388607 ≤ clampInt Config.fullScale z ∧ clampInt Config.fullScale z ≤ 8388607 :=
    fun z => clampInt_range (by decide)
  unfold hissPosition restoredValue
  dsimp only
  rw [toInt_ofInt_of_fullScale (h _)]
  exact h _

theorem hissPosition_ne_void (q : LaneSettings) (y : Int) (x : HissState) :
    (hissPosition q y x).1 ≠ Config.voidValue := by
  rw [Sample.ne_void_iff]
  have := hissPosition_toInt_range q y x
  omega

end Sys2Proof.Machine
end

section
/-! The lane engines and the ports act by moves alone, and so every command does: exec_moves. -/

namespace Sys2Proof.Machine

/-! ## One engine -/

theorem Moves.port (s : State) (p : Port) (f : PortState → PortState) : Moves s (s.mapPort p f) := (Update.port s p f).moves

theorem Moves.raise (e : Event) (s : State) : Moves s (raise e s) := (Update.raise e s).moves

/-- The anchors of every lane's work are sound, read lane by lane. -/
theorem AnchorsSound.at {s : State} (h : AnchorsSound s) (l : Lane) : ∀ a ∈ (s.engines.get l).work.anchors, a.Sound :=
  h l l.mem_all

/-- An engine whose work is kept, with settings that stay legal. -/
theorem EngineKept.of_work {s : State} {l : Lane} {x : LaneEngine} (hwork : x.work = (s.engines.get l).work)
    (hset : (s.engines.get l).settings.legal → x.settings.legal) : EngineKept s (s.engines.get l) x where
  settings := hset
  taken _ hp := .inr (hwork ▸ hp)
  anchors _ ha _ := hwork ▸ ha.at l

/-- An engine that drops its work. -/
theorem EngineKept.of_none {s : State} {e x : LaneEngine} (hwork : x.work = .none)
    (hset : e.settings.legal → x.settings.legal) : EngineKept s e x where
  settings := hset
  taken _ hp := by simp [hwork, Work.takenSettings] at hp
  anchors _ _ _ a ha := by simp [hwork, Work.anchors] at ha

/-- An engine that takes work with its stored settings and no anchor read. -/
theorem EngineKept.of_begin {s : State} {e : LaneEngine} {w : Work} (htaken : w.takenSettings = some e.settings)
    (hanch : w.anchors = []) : EngineKept s e { e with work := w } where
  settings := id
  taken _ hp := by
    rw [htaken] at hp
    exact .inl (Option.some.inj hp).symm
  anchors _ _ _ a ha := by
    rw [hanch] at ha
    cases ha

theorem Moves.mapLearn (s : State) (l : Lane) (f : Learn → Learn) : Moves s (s.mapLearn l f) :=
  .single (.engine s l _ (.of_work rfl id))

theorem Moves.mapDetector (s : State) (l : Lane) (f : Detector → Detector) : Moves s (s.mapDetector l f) :=
  .single (.engine s l _ (.of_work rfl id))

theorem LaneSettings.legal_floor {p : LaneSettings} (h : p.legal) (n : Nat) :
    LaneSettings.legal { p with floor := min 8388607 n } := by
  obtain ⟨hd, hh, hc, ha, hr, ho, hg, -⟩ := h
  exact ⟨hd, hh, hc, ha, hr, ho, hg, Nat.min_le_left ..⟩

theorem Moves.endLearn (l : Lane) (s : State) : Moves s (endLearn l s) := by
  unfold Machine.endLearn
  dsimp only
  split
  · exact Moves.mapLearn s l _
  · exact .trans (.single (.engine s l _ (.of_work rfl (fun h => LaneSettings.legal_floor h _)))) (Moves.raise _ _)

theorem Moves.learnCompletion (l : Lane) (k : Nat) (s : State) : Moves s (learnCompletion l k s) := by
  unfold Machine.learnCompletion
  dsimp only
  split
  · split
    · exact .trans (Moves.mapLearn s l _) (Moves.endLearn l _)
    · exact Moves.mapLearn s l _
  · exact .refl

theorem Moves.learnClose (s : State) (l : Lane) : Moves s (learnClose s l) := by
  unfold Machine.learnClose
  dsimp only
  split
  · exact Moves.endLearn l s
  · exact Moves.mapLearn s l _
  · exact .refl
  · exact .refl

/-! ## The flight -/

/-- The lane's work in flight is f, of a live render or of a re-render. -/
def Flies (s : State) (l : Lane) (f : Flight) : Prop := ∃ k, workOf s l = .live k f ∨ workOf s l = .reRender k f

/-- The work of a lane with another flight. -/
def Work.withFlight (w : Work) (g : Flight) : Work :=
  match w with
  | .none => .none
  | .live k _ => .live k g
  | .reRender k _ => .reRender k g

theorem setFlight_eq (s : State) (l : Lane) (g : Flight) :
    s.setFlight l g = s.mapEngine l (fun e => { e with work := e.work.withFlight g }) := by
  unfold State.setFlight workOf
  cases h : (s.engines.get l).work with
  | none =>
    simp only [State.mapEngine, h, Work.withFlight]
    rw [← h, PerLane.set_get]
  | live k f => simp only [State.setWork, State.mapEngine, h, Work.withFlight]
  | reRender k f => simp only [State.setWork, State.mapEngine, h, Work.withFlight]

theorem Flies.anchors {s : State} {l : Lane} {f : Flight} (h : Flies s l f) :
    (s.engines.get l).work.anchors = f.anchors := by
  obtain ⟨k, h | h⟩ := h
  · exact congrArg Work.anchors h
  · exact congrArg Work.anchors h

/-- The flight replaced by one of the same settings and of sound anchors. -/
theorem Flies.kept {s : State} {l : Lane} {f g : Flight} (h : Flies s l f) (hset : g.settings = f.settings)
    (hanch : WindowLegal s → AnchorsSound s → SamplesSound s → ∀ a ∈ g.anchors, a.Sound) :
    EngineKept s (s.engines.get l) { s.engines.get l with work := (s.engines.get l).work.withFlight g } := by
  have hwork : ((s.engines.get l).work.withFlight g).takenSettings = (s.engines.get l).work.takenSettings ∧
      ((s.engines.get l).work.withFlight g).anchors = g.anchors := by
    obtain ⟨k, h | h⟩ := h <;> rw [workOf] at h <;>
      simp [h, Work.withFlight, Work.takenSettings, Work.anchors, hset]
  exact ⟨id, fun p hp => .inr (hwork.1 ▸ hp), fun hw ha hs => hwork.2 ▸ hanch hw ha hs⟩

theorem Flies.setFlight {s : State} {l : Lane} {f g : Flight} (h : Flies s l f) (hset : g.settings = f.settings)
    (hanch : g.anchors = f.anchors) : Moves s (s.setFlight l g) := by
  rw [setFlight_eq]
  refine .single (.engine s l _ (h.kept hset (fun _ ha _ => ?_)))
  rw [hanch, ← h.anchors]
  exact ha.at l

/-! ## Detection -/

theorem Moves.presentSpan (l : Lane) (kind : EntryKind) (start : Position) (span : Nat) (peak : Option Nat) (d : Decision)
    (s : State) : Moves s (presentSpan l kind start span peak d s) := by
  unfold Machine.presentSpan
  split
  · refine .trans (Moves.mapDetector s l _) (.trans (Update.blocks _ _ (fun b => ?_)).moves (Moves.raise _ _))
    exact (b.kept_mapRecord l _).ite
  · next h => exact (Update.list s _ (room_of_not_full h)).moves

theorem Moves.presentClick (l : Lane) (p : LaneSettings) (start : Position) (span peak : Nat) (s : State) :
    Moves s (presentClick l p start span peak s) := by
  unfold Machine.presentClick
  split
  · exact .refl
  · exact Moves.presentSpan ..

theorem Moves.presentVoid (l : Lane) (p : LaneSettings) (start : Position) (span : Nat) (s : State) :
    Moves s (presentVoid l p start span s) := Moves.presentSpan ..

theorem Moves.examineIdle (l : Lane) (p : LaneSettings) (s : State) : Moves s (examineIdle l p s) := by
  unfold Machine.examineIdle
  dsimp only
  split
  · exact Moves.mapDetector s l _
  · split
    · exact Moves.mapDetector s l _
    · split <;> exact Moves.mapDetector s l _

theorem Moves.examineClick (l : Lane) (p : LaneSettings) (n m : Position) (peak g : Nat) (s : State) :
    Moves s (examineClick l p n m peak g s).1 := by
  unfold Machine.examineClick
  dsimp only
  split
  · exact .trans (Moves.mapDetector s l _) (Moves.presentClick ..)
  · split
    · split
      · dsimp only
        exact Moves.mapDetector s l _
      · exact .trans (Moves.mapDetector s l _) (Moves.presentClick ..)
    · split
      · exact .trans (Moves.mapDetector s l _) (Moves.presentClick ..)
      · dsimp only
        exact Moves.mapDetector s l _

theorem Moves.examineVoid (l : Lane) (p : LaneSettings) (start : Position) (n : Nat) (s : State) :
    Moves s (examineVoid l p start n s).1 := by
  unfold Machine.examineVoid
  dsimp only
  split
  · split
    · exact .trans (Moves.mapDetector s l _) (Moves.presentVoid ..)
    · dsimp only
      exact Moves.mapDetector s l _
  · exact .trans (Moves.mapDetector s l _) (Moves.presentVoid ..)

theorem Moves.detectStep (l : Lane) (p : LaneSettings) (b : Block) (s : State) : Moves s (detectStep l p b s).1 := by
  unfold Machine.detectStep
  dsimp only
  split
  · split
    · exact .refl
    · exact Moves.examineIdle l p s
  · split
    · exact .trans (Moves.mapDetector s l _) (Moves.presentClick ..)
    · exact Moves.examineClick ..
  · split
    · exact .trans (Moves.mapDetector s l _) (Moves.presentVoid ..)
    · exact Moves.examineVoid ..

theorem examineClick_not_over (l : Lane) (p : LaneSettings) (n m : Position) (peak g : Nat) (s : State) :
    (examineClick l p n m peak g s).2 ≠ .over := by
  unfold examineClick
  dsimp only
  split
  · simp
  · split
    · split <;> simp
    · split <;> simp

theorem examineVoid_not_over (l : Lane) (p : LaneSettings) (start : Position) (n : Nat) (s : State) :
    (examineVoid l p start n s).2 ≠ .over := by
  unfold examineVoid
  dsimp only
  split
  · split <;> simp
  · simp

/-- The detection of a block ends without a change (R76). -/
theorem detectStep_over {l : Lane} {p : LaneSettings} {b : Block} {s : State} (h : (detectStep l p b s).2 = .over) :
    (detectStep l p b s).1 = s := by
  unfold detectStep at *
  dsimp only at *
  split at h
  · split at h
    · next hc => rw [if_pos hc]
    · cases h
  · split at h
    · cases h
    · exact absurd h (examineClick_not_over _ _ _ _ _ _ _)
  · split at h
    · cases h
    · exact absurd h (examineVoid_not_over _ _ _ _ _)

theorem detectWork_cases (l : Lane) (b : Block) (f : Flight) (s : State) :
    (detectStep l f.settings b s = (s, .over) ∧ detectWork l b f s = (s.setFlight l { f with stage := .mend 0 }, .over)) ∨
      ((detectStep l f.settings b s).2 ≠ .over ∧ detectWork l b f s = detectStep l f.settings b s) := by
  have hover := detectStep_over (l := l) (p := f.settings) (b := b) (s := s)
  unfold detectWork
  generalize detectStep l f.settings b s = r at *
  obtain ⟨s1, seen⟩ := r
  match seen with
  | .over =>
    cases hover rfl
    exact .inl ⟨rfl, rfl⟩
  | .nothing | .click | .void => exact .inr ⟨by simp, rfl⟩

theorem Moves.detectWork {l : Lane} {f : Flight} {s : State} (b : Block) (h : Flies s l f) :
    Moves s (detectWork l b f s).1 := by
  obtain ⟨-, hd⟩ | ⟨-, hd⟩ := detectWork_cases l b f s <;> rw [hd]
  · exact h.setFlight rfl rfl
  · exact Moves.detectStep l f.settings b s

/-! ## The mend stage and the sound stages -/

/-- One position of the mend stage: the value written, if any, is not void, and the anchors it leaves are sound. -/
theorem mendPosition_cases (live : Bool) (l : Lane) (b : Block) (o : Nat) (known : List SpanAnchors) (s : State) :
    ∃ known', (WindowLegal s → SamplesSound s → (∀ a ∈ known, a.Sound) → ∀ a ∈ known', a.Sound) ∧
      (mendPosition live l b o known s = (s, known') ∨
        ∃ v, (WindowLegal s → SamplesSound s → (∀ a ∈ known, a.Sound) → v ≠ Config.voidValue) ∧
          mendPosition live l b o known s = (writeSample s b .mended l o v, known')) := by
  have hcovers : ∀ t, (highest (entryTreatments s l (positionAt b o))).orElse
      (fun _ => highest (if live then carriedTreatments s l (positionAt b o) else [])) = some t →
      t.Covers s (positionAt b o) := by
    intro t ht
    cases hl : highest (entryTreatments s l (positionAt b o)) with
    | some u =>
      rw [hl] at ht
      cases ht
      exact covers_of_mem_entryTreatments (mem_of_highest hl)
    | none =>
      rw [hl] at ht
      have hmem := mem_of_highest (show highest _ = some t from ht)
      cases live with
      | true => exact covers_of_mem_carriedTreatments hmem
      | false => cases hmem
  refine ⟨learnAnchors s l known (entryTreatments s l (positionAt b o) ++
      (if live then carriedTreatments s l (positionAt b o) else [])),
    fun hw hs hk => learnAnchors_sound hw hs hk _, ?_⟩
  unfold mendPosition
  dsimp only
  split
  · next t ht =>
    refine .inr ⟨_, fun hw hs hk => ?_, rfl⟩
    exact treatedValue_ne_void hw hs (hcovers t ht) (anchorsOf_sound hw hs (learnAnchors_sound hw hs hk _) t)
  · cases live with
    | true => exact .inr ⟨_, fun hw hs _ => keptOriginal_ne_void hw hs l _, rfl⟩
    | false => exact .inl rfl

theorem Moves.mendPosition {live : Bool} {l : Lane} {b : Block} {o : Nat} {f : Flight} {s : State} (h : Flies s l f)
    (hb : b ∈ s.window.blocks) (ho : o < b.fill) :
    Moves s ((mendPosition live l b o f.anchors s).1.setFlight l
      { f with stage := .mend (o + 1), anchors := (mendPosition live l b o f.anchors s).2 }) := by
  obtain ⟨known, hknown, hm | ⟨v, hv, hm⟩⟩ := mendPosition_cases live l b o f.anchors s
  all_goals
    have hkept : EngineKept s (s.engines.get l) { s.engines.get l with
        work := (s.engines.get l).work.withFlight { f with stage := .mend (o + 1), anchors := known } } :=
      h.kept rfl (fun hw ha hs => hknown hw hs (h.anchors ▸ ha.at l))
    rw [hm, setFlight_eq]
  · exact .single (.engine s l (fun e => { e with work := e.work.withFlight _ }) hkept)
  · exact .single (.mended s l b o v (fun e => { e with work := e.work.withFlight _ }) hb ho
      (fun hw ha hs => hv hw hs (h.anchors ▸ ha.at l)) hkept)

theorem Moves.beginSound {l : Lane} {f : Flight} {s : State} (b : Block) (h : Flies s l f) :
    Moves s (beginSound l b f s) := by
  unfold Machine.beginSound
  split
  · exact .refl
  · exact h.setFlight rfl rfl

theorem Moves.soundPosition {live : Bool} {l : Lane} {b : Block} {o : Nat} {f : Flight} {s : State} (h : Flies s l f)
    (hb : b ∈ s.window.blocks) (ho : o < b.fill) : Moves s (soundPosition live l b o f s) := by
  unfold Machine.soundPosition
  split
  · next y x _ _ =>
    dsimp only
    have hwrite : ∀ v, v ≠ Config.voidValue → ∀ g : Flight, g.settings = f.settings → g.anchors = f.anchors →
        Moves s ((writeSample s b .restored l o v).setFlight l g) := fun v hv g hset hanch =>
      .trans (.single (.sounded s l b o v hb ho hv)) (Flies.setFlight (s := writeSample s b .restored l o v) h hset hanch)
    split
    · refine .trans (hwrite _ (hissPosition_ne_void _ _ _) _ ?_ ?_) (Moves.mapLearn ..) <;> rfl
    · exact hwrite _ (hissPosition_ne_void _ _ _) _ rfl rfl
  · exact .refl

theorem Flies.mapDetector {s : State} {l : Lane} {f : Flight} (h : Flies s l f) (g : Detector → Detector) :
    Flies (s.mapDetector l g) l f := by
  obtain ⟨k, h⟩ := h
  exact ⟨k, by rwa [workOf, State.mapDetector_get_self]⟩

theorem Moves.renderStep {live : Bool} {l : Lane} {b : Block} {f : Flight} {s : State} (h : Flies s l f)
    (hb : b ∈ s.window.blocks) : Moves s (renderStep live l b f s) := by
  unfold Machine.renderStep
  split
  · exact Moves.detectWork b h
  · split
    · cases live with
      | true =>
        rw [if_pos rfl]
        exact .trans (Moves.mapDetector s l _) (Moves.beginSound b (h.mapDetector _))
      | false => exact Moves.beginSound b h
    · next ho => exact Moves.mendPosition h hb (Nat.lt_of_not_le ho)
  · split
    · exact h.setFlight rfl rfl
    · next ho => exact Moves.soundPosition h hb (Nat.lt_of_not_le ho)
  · exact .refl

theorem Moves.workStep (l : Lane) (s : State) : Moves s (workStep l s) := by
  unfold Machine.workStep
  split
  · exact .refl
  · next k f hf =>
    split
    · exact .refl
    · next b hb => exact Moves.renderStep ⟨k, .inl hf⟩ (mem_of_blockNumbered hb).1
  · next k f hf =>
    split
    · exact .refl
    · next b hb => exact Moves.renderStep ⟨k, .inr hf⟩ (mem_of_blockNumbered hb).1

theorem Moves.advance (l : Lane) (n : Nat) (s : State) : Moves s (advance l n s) := by
  induction n generalizing s with
  | zero => exact .refl
  | succ n ih =>
    rw [Machine.advance]
    split
    · exact .refl
    · exact .trans (Moves.workStep l s) (ih _)

theorem Moves.runToSpan {l : Lane} {want : Seen} {n : Nat} {s t : State} (h : runToSpan l want n s = some t) :
    Moves s t := by
  induction n generalizing s with
  | zero => cases h
  | succ n ih =>
    rw [Machine.runToSpan] at h
    split at h
    · next k f hf =>
      split at h
      · next b hb hstage =>
        have hwork := Moves.detectWork (s := s) b ⟨k, .inl hf⟩
        dsimp only at h
        split at h
        · cases h
          exact hwork
        · split at h
          · exact .trans hwork (ih h)
          · cases h
      · cases h
    · cases h
    · cases h

/-! ## Taking and completing work -/

theorem Moves.mapRecord (s : State) (k : Nat) (l : Lane) (f : LaneRecord → LaneRecord) :
    Moves s (s.mapBlock k (fun c => c.mapRecord l f)) :=
  (Update.blocks s _ (fun b => (b.kept_mapRecord l f).ite)).moves

theorem Moves.takeLive (l : Lane) (b : Block) (s : State) : Moves s (takeLive l b s) := by
  have hrecord := Moves.mapRecord s b.number l (LaneRecord.take ((s.engines.get l).learn.state == .active))
  have hwork : Moves s ((s.mapBlock b.number (fun c => c.mapRecord l
      (LaneRecord.take ((s.engines.get l).learn.state == .active)))).setWork l
        (.live b.number (Flight.begin (s.engines.get l).settings .detect))) :=
    .tail hrecord (.engine _ l _ (.of_begin rfl rfl))
  unfold Machine.takeLive
  dsimp only
  split
  · exact .trans hwork (Moves.mapLearn ..)
  · exact hwork

theorem Moves.takeReRender (l : Lane) (b : Block) (s : State) : Moves s (takeReRender l b s) := by
  refine .tail (Moves.mapRecord s b.number l (LaneRecord.take false)) ?_
  unfold Machine.takeReRender State.setWork
  exact .engine _ l _ (.of_begin rfl rfl)

theorem Moves.writeCompletion (l : Lane) (b : Block) (f : Flight) (s : State) : Moves s (writeCompletion l b f s) := by
  unfold Machine.writeCompletion
  refine .tail ?_ (.engine _ l _ (.of_none rfl id))
  have hrecord := Moves.mapRecord s b.number l (LaneRecord.complete (inputPeakOf s b l) (outputPeakOf s b l))
  split
  · exact hrecord
  · exact .trans hrecord (Moves.mapRecord ..)

theorem Moves.release (s : State) : Moves s (releaseRule s) := .single (.release s)

theorem Moves.makeHeld (k : Nat) (s : State) : Moves s (makeHeld k s) := by
  unfold Machine.makeHeld
  split
  · exact .refl
  · split
    · refine .trans (.trans (Update.blocks s _ (fun b => ?_)).moves (Moves.raise _ _)) (Moves.release _)
      dsimp only
      split
      · split
        · next hfull => exact ⟨rfl, rfl, rfl, rfl, .inr ⟨hfull, rfl⟩, id, fun _ => rfl⟩
        · exact .refl b
      · exact .refl b
    · exact .refl

theorem Moves.finishLive (l : Lane) (s : State) : Moves s (finishLive l s) := by
  unfold Machine.finishLive
  split
  · split
    · split
      · have h := fun k b f => ((Moves.writeCompletion l b f s).trans (Moves.learnCompletion l k _)).trans
          (Moves.makeHeld k _)
        dsimp only
        split
        · exact (h _ _ _).trans (Moves.release _)
        · exact h _ _ _
      · exact .refl
    · exact .refl
  · exact .refl
  · exact .refl

theorem Moves.raiseRendered (l : Lane) (done : Bool) (s : State) : Moves s (raiseRendered l done s) := by
  unfold Machine.raiseRendered
  split
  · exact Moves.raise _ _
  · exact .refl

theorem Moves.finishReRender (l : Lane) (s : State) : Moves s (finishReRender l s) := by
  unfold Machine.finishReRender
  split
  · split
    · split
      · next b _ _ =>
        have h := Moves.writeCompletion l b ‹Flight› s
        dsimp only
        split
        · exact (h.trans (Moves.release _)).trans (Moves.raiseRendered ..)
        · exact h.trans (Moves.raiseRendered ..)
      · exact .refl
    · exact .refl
  · exact .refl
  · exact .refl

end Sys2Proof.Machine
end

section
/-! Every command is a run of moves: frames, reads, the requests that are taken, and exec_moves. -/

namespace Sys2Proof.Machine

/-! ## Frames -/

/-- A reply whose items and their ends are moves. -/
def Source.Moving (src : Source) : Prop :=
  ∀ p k s, Moves s (src.item p k s).1 ∧ Moves s (src.shifted p k s)

theorem Moves.composeByte {src : Source} (h : src.Moving) (p : Port) (s : State) : Moves s (composeByte src p s) := by
  unfold Machine.composeByte
  dsimp only
  split
  · exact Moves.port ..
  · split
    · exact Moves.port ..
    · have hitem := (h p ((s.ports.get p).pulses / 2 - 1) s).1
      split
      · next hs =>
        rw [hs] at hitem
        exact hitem.trans (Moves.port ..)
      · next hs =>
        rw [hs] at hitem
        exact hitem.trans (Moves.port ..)

theorem Moves.shiftNibbles {src : Source} (h : src.Moving) (p : Port) (n : Nat) (s : State) :
    Moves s (shiftNibbles src p n s) := by
  have hone : ∀ t, Moves t (shiftNibble src p t) := by
    intro t
    unfold shiftNibble
    dsimp only
    split
    · exact (Moves.composeByte h p t).trans (Moves.port ..)
    · split
      · exact Moves.port ..
      · exact (Moves.port ..).trans (h p _ _).2
  induction n generalizing s with
  | zero => exact .refl
  | succ n ih => exact (hone s).trans (ih _)

theorem statusSource_moving : statusSource.Moving := fun _ _ _ => ⟨.refl, .refl⟩

theorem plainData_moving (item : Port → Nat → State → List Byte) : (plainData item).Moving := fun _ _ _ => ⟨.refl, .refl⟩

theorem readSource_moving {α : Type} (dec : List Byte → Option α) {data : α → Source} (h : ∀ a, (data a).Moving) :
    (readSource dec data).Moving := by
  intro p k s
  constructor
  · unfold readSource
    dsimp only
    split
    · exact (h _ p k s).1
    · exact .refl
  · unfold readSource
    dsimp only
    split
    · exact (h _ p k s).2
    · exact .refl

section Frames
variable {α : Type} {p : Port} {r : Request} {enc : α → List Byte} {dec : List Byte → Option α}

theorem Moves.finishCommand {lane : α → Byte} {take : α → State → State × Result}
    (h : ∀ a s, acceptance s p r (lane a) = .done → Moves s (take a s).1) (s : State) :
    Moves s (finishCommand p r dec lane take s) := by
  unfold Machine.finishCommand
  split
  · split
    · exact .refl
    · next a _ =>
      cases hacc : acceptance s p r (lane a) with
      | done => exact (h a s hacc).trans (Moves.port ..)
      | clamped | denied | state | arg | late | noent | conflict | forced | full | short | unknown =>
        exact Moves.port ..
  · exact .refl

/-- A frame of a request taken at frame end moves the part as its taking does. -/
theorem Moves.commandFrame {lane : α → Byte} {take : α → State → State × Result} {f : Frame α}
    (h : ∀ a s, acceptance s p r (lane a) = .done → Moves s (take a s).1) (s : State) :
    Moves s (commandFrame p r enc dec lane take f s) := by
  unfold Machine.commandFrame
  cases f with
  | whole a n =>
    dsimp only
    split
    · exact ((Moves.port ..).trans (Moves.shiftNibbles statusSource_moving p n _)).trans (Moves.finishCommand h _)
    · exact .refl
  | receive a =>
    dsimp only
    split
    · exact Moves.port ..
    · exact .refl
  | reply n =>
    dsimp only
    split
    · exact Moves.shiftNibbles statusSource_moving p n s
    · exact .refl
  | finish => exact Moves.finishCommand h s

theorem Moves.finishRead (s : State) : Moves s (finishRead p r s) := by
  unfold Machine.finishRead
  split
  · exact Moves.port ..
  · exact .refl

/-- A frame of a read moves the part as its check and its data do. -/
theorem Moves.readFrame {check : α → State → State × Result} {data : α → Source} {f : Frame α}
    (hcheck : ∀ a s, Moves s (check a s).1) (hdata : ∀ a, (data a).Moving) (s : State) :
    Moves s (readFrame p r enc dec check data f s) := by
  have hreceive : ∀ a t, Moves t (receiveRead p r enc check a t) := by
    intro a t
    unfold receiveRead
    dsimp only
    exact ((Moves.port t p _).trans (hcheck a _)).trans (Moves.port _ p _)
  have hshift := fun n t => Moves.shiftNibbles (readSource_moving dec hdata) p n t
  unfold Machine.readFrame
  cases f with
  | whole a n =>
    dsimp only
    split
    · exact ((hreceive a s).trans (hshift n _)).trans (Moves.finishRead _)
    · exact .refl
  | receive a =>
    dsimp only
    split
    · exact hreceive a s
    · exact .refl
  | reply n =>
    dsimp only
    split
    · exact hshift n s
    · exact .refl
  | finish => exact Moves.finishRead s

theorem Moves.openRead {data : α → Source} {f : Frame α} (hdata : ∀ a, (data a).Moving) (s : State) :
    Moves s (Machine.readFrame p r enc dec openCheck data f s) :=
  Moves.readFrame (fun _ _ => .refl) hdata s

end Frames

theorem Moves.unknownFrame (p : Port) (f : Frame Byte) (s : State) : Moves s (unknownFrame p f s) := by
  have hshift := fun n t => Moves.shiftNibbles statusSource_moving p n t
  unfold Machine.unknownFrame
  cases f with
  | whole c n =>
    dsimp only
    split
    · exact ((Moves.port ..).trans (hshift n _)).trans (Moves.port ..)
    · exact .refl
  | receive c =>
    dsimp only
    split
    · exact Moves.port ..
    · exact .refl
  | reply n =>
    dsimp only
    split
    · exact hshift n s
    · exact .refl
  | finish =>
    dsimp only
    split
    · exact Moves.port ..
    · exact .refl

theorem Moves.shortFrame (p : Port) (f : Frame ShortArgs) (s : State) : Moves s (shortFrame p f s) := by
  unfold Machine.shortFrame
  cases f with
  | whole a n =>
    dsimp only
    split
    · exact (Moves.port ..).trans (Moves.port ..)
    · exact .refl
  | receive a =>
    dsimp only
    split
    · exact Moves.port ..
    · exact .refl
  | reply n => exact .refl
  | finish =>
    dsimp only
    split
    · exact Moves.port ..
    · exact .refl

theorem Moves.pulseSelect (p : Port) (s : State) : Moves s (pulseSelect p s) := by
  unfold Machine.pulseSelect
  split
  · exact Moves.port ..
  · exact .refl

/-! ## Requests taken -/

theorem Moves.takeOpen (a : OpenArgs) (s : State) : Moves s (takeOpen a s).1 := by
  unfold Machine.takeOpen
  split
  · exact .refl
  · next x hx => exact .single (.opened s a x hx)

theorem Moves.takeClose {s : State} (hrun : s.pass.state = .running) : Moves s (takeClose () s).1 := by
  have hlearns : ∀ (ls : List Lane) (t : State), Moves t (ls.foldl Machine.learnClose t) := by
    intro ls
    induction ls with
    | nil => exact fun _ => .refl
    | cons l ls ih => exact fun t => (Moves.learnClose t l).trans (ih _)
  exact ((Relation.ReflTransGen.single (.closing s hrun)).trans (Moves.release _)).trans (hlearns _ _)

theorem Moves.takeAbort (s : State) : Moves s (takeAbort () s).1 := by
  unfold Machine.takeAbort
  dsimp only
  split
  · exact .refl
  · exact .single (.abandoned s)

theorem Moves.staleRequests (ls : List Lane) (k : Nat) (s : State) : Moves s (staleRequests ls k s) := by
  unfold Machine.staleRequests
  induction ls generalizing s with
  | nil => exact .refl
  | cons l ls ih =>
    have hone : Moves s (staleRequest l k s) := by
      obtain h | h := staleRequest_cases l k s <;> rw [h]
      exact (Update.blocks s _ (fun b => (b.kept_mapRecord l _).ite)).moves
    exact hone.trans (ih _)

theorem Moves.takeSplice (mark : Position) (s : State) : Moves s (takeSplice mark s).1 := by
  unfold Machine.takeSplice
  dsimp only
  split
  · exact .refl
  · split
    · exact .refl
    · split
      · exact .refl
      · split
        · exact .refl
        · next h => exact (Update.list s _ (room_of_not_full h)).moves.trans (Moves.staleRequests ..)

/-- A value that LPUT stores leaves the settings in their ranges (R160 to R162). -/
theorem LaneSettings.legal_put {p : LaneSettings} {i v w : Nat} (h : p.legal) (hw : storedValue p i v = some w) :
    (p.put i w).legal := by
  obtain ⟨⟨h1, h2, h3, h4, h5⟩, ⟨h6, h7, h8, h9, h10, h11⟩, h12, h13, h14, h15, h16, h17⟩ := h
  unfold storedValue parameterRange at hw
  split at hw
  · cases hw
  · next lo hi hrange =>
    split at hrange <;> cases hrange <;> cases hw <;> simp only [LaneSettings.put, clampNat] <;>
      exact ⟨⟨by dsimp only; omega, by dsimp only; omega, by dsimp only; omega, by dsimp only; omega, by dsimp only; omega⟩,
        ⟨by dsimp only; omega, by dsimp only; omega, by dsimp only; omega, by dsimp only; omega, by dsimp only; omega,
          by dsimp only; omega⟩,
        by dsimp only; omega, by dsimp only; omega, by dsimp only; omega, by dsimp only; omega, by dsimp only; omega,
        by dsimp only; omega⟩

theorem Moves.takeLput (a : LputArgs) (s : State) : Moves s (takeLput a s).1 := by
  unfold Machine.takeLput
  split
  · exact .refl
  · next l _ =>
    split
    · exact .refl
    · next v hv =>
      dsimp only
      exact .single (.engine s l _ (.of_work rfl (fun h => LaneSettings.legal_put h hv)))

theorem Moves.takeLearn (a : LearnArgs) (s : State) : Moves s (takeLearn a s).1 := by
  unfold Machine.takeLearn
  split
  · exact .refl
  · dsimp only
    split
    · dsimp only
      exact Moves.mapLearn ..
    · exact .refl

theorem Moves.takeHold (h : Byte) (s : State) : Moves s (takeHold h s).1 :=
  (Relation.ReflTransGen.single (.hold s _ (Nat.min_le_left ..))).trans (Moves.release _)

theorem Moves.takeRls (n : Word32) (s : State) : Moves s (takeRls n s).1 :=
  (Relation.ReflTransGen.single (.mark s _)).trans (Moves.release _)

theorem Moves.setDecision (e : Entry) (d : Decision) (s : State) : Moves s (setDecision e d s) := by
  have hset : Moves s (s.setEntries (s.catalogue.entries.map (fun x =>
      if x.number = e.number then { x with decision := some d, decidedBy := .review } else x))) :=
    .single (.decide s _ (fun x => by split <;> exact ⟨rfl, rfl, rfl, rfl⟩))
  unfold Machine.setDecision
  dsimp only
  split
  · exact hset
  · exact hset.trans (Moves.staleRequests ..)

theorem Moves.takeCdec (a : CdecArgs) (s : State) : Moves s (takeCdec a s).1 := by
  unfold Machine.takeCdec
  split
  · exact .refl
  · split
    · exact .refl
    · split
      · exact .refl
      · split
        · exact .refl
        · exact Moves.setDecision ..

theorem mem_of_entryNumbered {s : State} {n : Nat} {e : Entry} (h : entryNumbered s n = some e) :
    e ∈ s.catalogue.entries ∧ e.number = n :=
  ⟨List.mem_of_find?_eq_some h, by simpa using List.find?_some h⟩

theorem seekTarget_present {s : State} {m : SeekMode} {a : CseekArgs} {x : Option Nat} (h : seekTarget s m a = some x) :
    ∀ n ∈ x, n ∈ s.catalogue.entries.map (fun e => e.number) := by
  have hmap : ∀ o : Option Entry, (∀ e ∈ o, e ∈ s.catalogue.entries) →
      ∀ n ∈ o.map (fun e => e.number), n ∈ s.catalogue.entries.map (fun e => e.number) := by
    intro o ho n hn
    obtain ⟨e, he, rfl⟩ := Option.mem_map.mp hn
    exact List.mem_map_of_mem (ho e he)
  unfold seekTarget at h
  cases m with
  | first =>
    cases h
    exact hmap _ (fun e he => List.mem_of_head? he)
  | last =>
    cases h
    exact hmap _ (fun e he => List.mem_of_getLast? he)
  | number =>
    obtain ⟨e, he, rfl⟩ := Option.map_eq_some_iff.mp h
    rintro _ ⟨⟩
    exact List.mem_map_of_mem (mem_of_entryNumbered he).1
  | position =>
    cases h
    exact hmap _ (fun e he => List.mem_of_find?_eq_some he)

theorem Moves.takeCseek (p : Port) (a : CseekArgs) (s : State) : Moves s (takeCseek p a s).1 := by
  unfold Machine.takeCseek
  split
  · split
    · next x hx => exact .single (.cursor s p _ (seekTarget_present hx))
    · exact .refl
  · exact .refl

theorem Moves.takeDack (n : Word32) (s : State) : Moves s (takeDack n s).1 := by
  unfold Machine.takeDack
  split
  · exact .refl
  · next b hb =>
    split
    · exact (((Relation.ReflTransGen.single (.free s b hb)).trans (resumeStall_moves _)).tail (.report _)).tail (.empty _)
    · exact .refl

theorem Moves.takeGrant (a : GrantArgs) (s : State) : Moves s (takeGrant a s).1 := by
  unfold Machine.takeGrant
  split
  · exact .single (.rights s _)
  · exact .refl

theorem Moves.takeRstp (s : State) : Moves s (takeRstp () s).1 := .tail (.single (.abandoned s)) (.restored _)

theorem Moves.takeEvclr (p : Port) (m : BitVec 16) (s : State) : Moves s (takeEvclr p m s).1 := Update.moves (.ports s _)

theorem Moves.takeEvmask (p : Port) (m : BitVec 16) (s : State) : Moves s (takeEvmask p m s).1 :=
  Update.moves (.ports s _)

/-! ## Reads -/

theorem mem_of_walkNext {s : State} {e x : Entry} {d : Direction} (h : walkNext s e d = some x) :
    x ∈ s.catalogue.entries := by
  cases d with
  | forward => exact List.mem_of_find?_eq_some h
  | backward => exact List.mem_of_mem_filter (List.mem_of_getLast? h)

theorem cwalkData_moving (u : Unit) : (cwalkData u).Moving := by
  intro p k s
  constructor
  · change Moves s (walkItem p s).1
    unfold walkItem
    split <;> dsimp only <;> exact Moves.port ..
  · change Moves s (walkShifted p k s)
    unfold walkShifted
    split
    · split
      · exact .refl
      · next e _ =>
        refine .trans (.single (.cursor s p _ (fun n hn => ?_))) (Moves.port ..)
        obtain ⟨x, hx, rfl⟩ := Option.mem_map.mp hn
        exact List.mem_map_of_mem (mem_of_walkNext hx)
    · exact .refl

theorem Moves.checkDnext (p : Port) (x : Byte) (s : State) : Moves s (checkDnext p x s).1 := by
  unfold Machine.checkDnext
  split
  · split
    · dsimp only
      exact Moves.port ..
    · exact .refl
  · exact .refl

theorem dnextData_moving (x : Byte) : (dnextData x).Moving := by
  intro p k s
  refine ⟨?_, .refl⟩
  change Moves s (dnextItem p k s).1
  unfold dnextItem
  split
  · exact .refl
  · dsimp only
    exact Moves.port ..

/-! ## Every command -/

theorem Moves.settle (s : State) : Moves s (settle s) :=
  .tail (.single (.ready s (readyOf s))) (.update (.ports _ _))

theorem acceptance_done_running {s : State} {p : Port} {lane : Byte} (h : acceptance s p .closePass lane = .done) :
    s.pass.state = .running := by
  unfold acceptance at h
  split at h
  · cases h
  · split at h
    · cases h
    · next hstate => simpa [acceptedIn] using hstate

theorem markLoss_length (es : List FifoEntry) : (markLoss es).length = es.length := by
  obtain rfl | ⟨older, newest, rfl⟩ := List.eq_nil_or_concat es
  · rfl
  · rw [List.concat_eq_append, markLoss_append_singleton]
    simp

theorem moves_of_completed {s t u : State} (h : completed u = .next t) (hu : Moves s u) : Moves s t := by
  cases h
  exact hu.trans (Moves.settle u)

/-- Every command is a run of moves. -/
theorem exec_moves {c : Instr} {s t : State} (h : exec c s = .next t) : Moves s t := by
  cases c with
  | openPass p f => exact moves_of_completed h (Moves.commandFrame (fun a s _ => Moves.takeOpen a s) s)
  | closePass p f =>
    exact moves_of_completed h (Moves.commandFrame (fun _ _ hacc => Moves.takeClose (acceptance_done_running hacc)) s)
  | abort p f => exact moves_of_completed h (Moves.commandFrame (fun _ s _ => Moves.takeAbort s) s)
  | splice p f => exact moves_of_completed h (Moves.commandFrame (fun a s _ => Moves.takeSplice a s) s)
  | lput p f => exact moves_of_completed h (Moves.commandFrame (fun a s _ => Moves.takeLput a s) s)
  | learn p f => exact moves_of_completed h (Moves.commandFrame (fun a s _ => Moves.takeLearn a s) s)
  | hold p f => exact moves_of_completed h (Moves.commandFrame (fun a s _ => Moves.takeHold a s) s)
  | rls p f => exact moves_of_completed h (Moves.commandFrame (fun a s _ => Moves.takeRls a s) s)
  | cdec p f => exact moves_of_completed h (Moves.commandFrame (fun a s _ => Moves.takeCdec a s) s)
  | dack p f => exact moves_of_completed h (Moves.commandFrame (fun a s _ => Moves.takeDack a s) s)
  | grant p f => exact moves_of_completed h (Moves.commandFrame (fun a s _ => Moves.takeGrant a s) s)
  | rstp p f => exact moves_of_completed h (Moves.commandFrame (fun _ s _ => Moves.takeRstp s) s)
  | cseek p f => exact moves_of_completed h (Moves.commandFrame (fun a s _ => Moves.takeCseek p a s) s)
  | evclr p f => exact moves_of_completed h (Moves.commandFrame (fun a s _ => Moves.takeEvclr p a s) s)
  | evmask p f => exact moves_of_completed h (Moves.commandFrame (fun a s _ => Moves.takeEvmask p a s) s)
  | lget p f => exact moves_of_completed h (Moves.openRead (fun _ => plainData_moving _) s)
  | rights p f => exact moves_of_completed h (Moves.openRead (fun _ => plainData_moving _) s)
  | events p f => exact moves_of_completed h (Moves.openRead (fun _ => plainData_moving _) s)
  | stat p f => exact moves_of_completed h (Moves.openRead (fun _ => plainData_moving _) s)
  | caps p f => exact moves_of_completed h (Moves.openRead (fun _ => plainData_moving _) s)
  | probe p f => exact moves_of_completed h (Moves.openRead (fun _ => plainData_moving _) s)
  | cwalk p f => exact moves_of_completed h (Moves.openRead cwalkData_moving s)
  | dnext p f => exact moves_of_completed h (Moves.readFrame (Moves.checkDnext p) dnextData_moving s)
  | unknownCode p f => exact moves_of_completed h (Moves.unknownFrame p f s)
  | short p f => exact moves_of_completed h (Moves.shortFrame p f s)
  | selectPulse p => exact moves_of_completed h (Moves.pulseSelect p s)
  | pinReset chief => exact moves_of_completed h (.single (.reset s chief))
  | transfer g w =>
    refine moves_of_completed h ?_
    unfold arrive
    split
    · next hrun =>
      split
      · next hroom =>
        refine .single (.arrived s _ hrun (fun _ => ?_))
        rw [List.length_append, List.length_singleton]
        exact hroom
      · refine .trans (.single (.arrived s _ hrun (fun hlen => ?_))) (Moves.raise ..)
        rwa [markLoss_length]
    · exact .refl
  | headTaken => exact moves_of_completed h (takeOldest_moves _ s)
  | dataTaken => exact moves_of_completed h (takeOldest_moves _ s)
  | markTaken => exact moves_of_completed h (takeOldest_moves _ s)
  | endTaken => exact moves_of_completed h (takeOldest_moves _ s)
  | runOutEnd =>
    refine moves_of_completed h ?_
    split
    · next hdue =>
      rw [endRunOut_eq]
      exact .tail (.single (.runOut s hdue)) (.report _)
    · exact .refl
  | trackerTimeout q =>
    refine moves_of_completed h ?_
    split
    · exact (Updates.trackerReport q s).moves
    · exact .refl
  | liveRenderTake l =>
    refine moves_of_completed h ?_
    split
    · exact Moves.takeLive ..
    · exact .refl
  | reRenderTake l =>
    refine moves_of_completed h ?_
    split
    · exact Moves.takeReRender ..
    · exact .refl
  | clickListing l | voidListing l =>
    refine moves_of_completed h ?_
    cases hrun : runToSpan l _ workFuel s with
    | none => exact .refl
    | some u => exact Moves.runToSpan hrun
  | liveRenderComplete l w =>
    refine moves_of_completed h ?_
    split
    · exact Moves.advance ..
    · exact (Moves.advance ..).trans (Moves.finishLive ..)
    · exact .refl
    · exact .refl
  | reRenderComplete l w =>
    refine moves_of_completed h ?_
    split
    · exact Moves.advance ..
    · exact (Moves.advance ..).trans (Moves.finishReRender ..)
    · exact .refl
    · exact .refl

end Sys2Proof.Machine
end

section
/-! The release rule, the reports that end a pass and the end of the run-out, each in closed form; and the first invariants
of all commands: the canonical form of the window memory (O53) and the ranges of the lane settings (O55). -/

namespace Sys2Proof.Machine

/-! ## The release rule in closed form -/

/-- A block after the release of the blocks with some numbers (R47). -/
def Block.releasedIn (ks : List Nat) (b : Block) : Block :=
  if b.number ∈ ks ∧ b.state = .held then { b with state := .released } else b

/-- An entry after the release of the blocks with some numbers: fixed where it starts in one of them (R47, R66). -/
def Entry.fixedIn (s : State) (ks : List Nat) (e : Entry) : Entry :=
  { e with fixed := e.fixed || ks.any (fun k => startsIn s k e) }

/-- The part after the release of the blocks with some numbers, as one event (R47). -/
def releasedState (ks : List Nat) (s : State) : State :=
  raise .released ((s.mapBlocks (Block.releasedIn ks)).setEntries (s.catalogue.entries.map (Entry.fixedIn s ks)))

theorem Block.releasedIn_frame (ks : List Nat) (b : Block) :
    (b.releasedIn ks).slot = b.slot ∧ (b.releasedIn ks).number = b.number ∧ (b.releasedIn ks).first = b.first ∧
      (b.releasedIn ks).fill = b.fill ∧ (b.releasedIn ks).events = b.events ∧ (b.releasedIn ks).lanes = b.lanes := by
  unfold Block.releasedIn
  split <;> exact ⟨rfl, rfl, rfl, rfl, rfl, rfl⟩

theorem Block.releasedIn_state (ks : List Nat) (b : Block) :
    (b.releasedIn ks).state = if b.number ∈ ks ∧ b.state = .held then .released else b.state := by
  unfold Block.releasedIn
  split <;> rfl

theorem raise_raise (e : Event) (s : State) : raise e (raise e s) = raise e s := by
  simp only [raise, PerPort.map]
  congr 2 <;> rw [BitVec.or_assoc, BitVec.or_self]

theorem Block.releasedIn_append (js ks : List Nat) (b : Block) :
    (b.releasedIn js).releasedIn ks = b.releasedIn (js ++ ks) := by
  simp only [Block.releasedIn, List.mem_append]
  grind

theorem Entry.fixedIn_append (s : State) (js ks : List Nat) (e : Entry) :
    (e.fixedIn s js).fixedIn s ks = e.fixedIn s (js ++ ks) := by
  simp only [Entry.fixedIn, startsIn, List.any_append, Bool.or_assoc]

/-- Two releases in a row are one release. -/
theorem releasedState_releasedState (js ks : List Nat) (s : State) :
    releasedState ks (releasedState js s) = releasedState (js ++ ks) s := by
  have hentries : (releasedState js s).catalogue.entries.map (Entry.fixedIn (releasedState js s) ks) =
      s.catalogue.entries.map (Entry.fixedIn s (js ++ ks)) := by
    change (s.catalogue.entries.map (Entry.fixedIn s js)).map (Entry.fixedIn s ks) = _
    simp only [List.map_map, Function.comp_def, Entry.fixedIn_append]
  have hblocks : (releasedState js s).window.blocks.map (Block.releasedIn ks) =
      s.window.blocks.map (Block.releasedIn (js ++ ks)) := by
    change (s.window.blocks.map (Block.releasedIn js)).map (Block.releasedIn ks) = _
    simp only [List.map_map, Function.comp_def, Block.releasedIn_append]
  rw [releasedState, hentries, State.mapBlocks, hblocks]
  exact raise_raise .released ((s.mapBlocks (Block.releasedIn (js ++ ks))).setEntries _)

/-- One block released. -/
theorem releaseBlock_eq (s : State) (k : Nat) : releaseBlock s k = releasedState [k] s := by
  have hblock : (fun b : Block => if b.number = k then (if b.state = .held then { b with state := .released } else b) else b) =
      Block.releasedIn [k] := by
    funext b
    simp only [Block.releasedIn, List.mem_singleton, ite_and]
  have hentry : (fun e : Entry => if startsIn s k e then { e with fixed := true } else e) = Entry.fixedIn s [k] := by
    funext e
    unfold Entry.fixedIn
    cases h : startsIn s k e <;> simp [h]
  rw [releasedState, ← hblock, ← hentry]
  rfl

theorem foldl_releaseBlock (ks js : List Nat) (s : State) :
    ks.foldl releaseBlock (releasedState js s) = releasedState (js ++ ks) s := by
  induction ks generalizing js with
  | nil => rw [List.append_nil, List.foldl_nil]
  | cons k ks ih => rw [List.foldl_cons, releaseBlock_eq, releasedState_releasedState, ih, List.append_assoc, List.singleton_append]

/-- The release rule, in closed form: nothing where it may release no block, else the blocks released at once, with the
report that follows (R46, R47). -/
theorem releaseRule_eq (s : State) :
    releaseRule s =
      if releasable s s.window.blocks = [] then s
      else reportReleased (releasedState (releasable s s.window.blocks) s) := by
  unfold releaseRule
  split
  · next h => rw [if_pos h]
  · next h hne =>
    rw [if_neg hne]
    obtain ⟨k, ks, hks⟩ := List.exists_cons_of_ne_nil hne
    rw [hks, List.foldl_cons, releaseBlock_eq, foldl_releaseBlock, List.singleton_append]

theorem mem_releasable_blocks {s : State} {bs : List Block} {k : Nat} (h : k ∈ releasable s bs) : bs ≠ [] := by
  obtain ⟨b, hb, -⟩ := mem_releasable h
  exact List.ne_nil_of_mem hb

/-- The report that may end a pass, where the window holds a block: the pass becomes ENDED, or nothing changes. -/
theorem reportReleased_of_blocks {s : State} (h : s.window.blocks ≠ []) :
    reportReleased s =
      if s.pass.state = .closing ∧ s.pass.runOutEnded = true ∧ ∀ b ∈ s.window.blocks, b.state = .released then
        { s with pass := { s.pass with state := .ended } }
      else s := by
  unfold reportReleased
  simp only [List.all_eq_true, beq_iff_eq]
  split
  · rw [endedToIdle, if_neg (fun hn => h hn.2)]
  · rfl

/-- The release rule makes the release and then, at most, ends the pass. -/
theorem releaseRule_cases (s : State) :
    releaseRule s = s ∨
      ∃ ks, ks = releasable s s.window.blocks ∧ ks ≠ [] ∧
        (releaseRule s = releasedState ks s ∨
          (s.pass.state = .closing ∧ s.pass.runOutEnded = true ∧
            (∀ b ∈ (releasedState ks s).window.blocks, b.state = .released) ∧
            releaseRule s = { releasedState ks s with pass := { s.pass with state := .ended } })) := by
  rw [releaseRule_eq]
  split
  · exact .inl rfl
  · next hne =>
    refine .inr ⟨_, rfl, hne, ?_⟩
    obtain ⟨k, ks, hks⟩ := List.exists_cons_of_ne_nil hne
    have hblocks : s.window.blocks ≠ [] := mem_releasable_blocks (hks ▸ List.mem_cons_self ..)
    have hblocks' : (releasedState (releasable s s.window.blocks) s).window.blocks ≠ [] := fun h =>
      hblocks (List.map_eq_nil_iff.mp h)
    rw [reportReleased_of_blocks hblocks']
    split
    · next h => exact .inr ⟨h.1, h.2.1, h.2.2, rfl⟩
    · exact .inl rfl

/-- Where the rule has come to, in fields: what it keeps. -/
theorem releaseRule_frame (s : State) :
    (releaseRule s).pending = s.pending ∧ (releaseRule s).scan = s.scan ∧ (releaseRule s).tracker = s.tracker ∧
      (releaseRule s).engines = s.engines ∧ (releaseRule s).rights = s.rights ∧
      (releaseRule s).window = { s.window with blocks := (releaseRule s).window.blocks } ∧
      (releaseRule s).catalogue = { s.catalogue with entries := (releaseRule s).catalogue.entries } := by
  obtain h | ⟨ks, -, -, h | ⟨-, -, -, h⟩⟩ := releaseRule_cases s <;> rw [h] <;> exact ⟨rfl, rfl, rfl, rfl, rfl, rfl, rfl⟩

/-! ## The reports and the end of the run-out -/

/-- What the report that all blocks are released keeps. -/
theorem reportReleased_frame (s : State) :
    (reportReleased s).pending = s.pending ∧ (reportReleased s).scan = s.scan ∧ (reportReleased s).tracker = s.tracker ∧
      (reportReleased s).engines = s.engines ∧ (reportReleased s).rights = s.rights ∧
      (reportReleased s).catalogue = s.catalogue ∧ (reportReleased s).window.memory = s.window.memory := by
  obtain h | ⟨-, -, -, h⟩ := reportReleased_cases s
  · rw [h]
    exact ⟨rfl, rfl, rfl, rfl, rfl, rfl, rfl⟩
  · rw [h]
    obtain ⟨h, -⟩ | ⟨-, -, h⟩ := endedToIdle_cases { s with pass := { s.pass with state := .ended } } <;> rw [h] <;>
      exact ⟨rfl, rfl, rfl, rfl, rfl, rfl, rfl⟩

/-- The truncation of a packet is an act of Scan Input (R20). -/
theorem Feeds.truncatePacket (s : State) : Feeds s (truncatePacket s) := by
  have hscan : ∀ u : State, Feeds u (u.setScan { u.scan with packet := .none, heldWord := none, context := none }) :=
    fun _ => Feeds.scan rfl rfl
  unfold Machine.truncatePacket
  split
  · exact (Feeds.linkFault s).trans (hscan _)
  · exact (Feeds.linkFault s).trans (hscan _)
  · exact (Feeds.raise .link s).trans (hscan _)
  · exact hscan s
  · exact hscan s

/-- The end of the FILLING block at the end of the run-out (R20, R33, R39, R67). -/
theorem endFilling_cases (s : State) :
    (fillingBlock s = none ∧ endFilling s = s) ∨
      (∃ b, fillingBlock s = some b ∧ b.fill = 0 ∧
        endFilling s =
          (removeEntriesOf b.number s).setBlocks (s.window.blocks.filter (fun c => c.state != .filling))) ∨
      ∃ b, fillingBlock s = some b ∧ b.fill ≠ 0 ∧
        endFilling s =
          s.mapBlocks (fun c =>
            if c.state = .filling then
              { c with state := .full, events := c.events.filter (fun e => decide (e.offset < c.fill)) }
            else c) := by
  unfold endFilling
  split
  · next h => exact .inl ⟨h, rfl⟩
  · next b h =>
    split
    · next hf => exact .inr (.inl ⟨b, h, hf, rfl⟩)
    · next hf => exact .inr (.inr ⟨b, h, hf, rfl⟩)

/-- What the end of the FILLING block keeps. -/
theorem endFilling_frame (s : State) :
    (endFilling s).pending = s.pending ∧ (endFilling s).pass = s.pass ∧ (endFilling s).scan = s.scan ∧
      (endFilling s).tracker = s.tracker ∧ (endFilling s).engines = s.engines ∧ (endFilling s).rights = s.rights ∧
      (endFilling s).window = { s.window with blocks := (endFilling s).window.blocks } := by
  obtain ⟨-, h⟩ | ⟨b, -, -, h⟩ | ⟨b, -, -, h⟩ := endFilling_cases s <;> rw [h] <;> exact ⟨rfl, rfl, rfl, rfl, rfl, rfl, rfl⟩

/-! ## The window memory (O53) -/

theorem Update.memory {s t : State} (h : Update s t) : t.window.memory = s.window.memory := by
  cases h with
  | ports | blocks | track => rfl
  | list e =>
    obtain ⟨-, -, -, -, hw, -⟩ := listEntry_frame e s
    rw [hw]

theorem Feed.memory_wf {s t : State} (h : Feed s t) (hm : Memory.wf s.window.memory) : Memory.wf t.window.memory := by
  cases h with
  | update h => exact h.memory ▸ hm
  | scan | slot | count => exact hm
  | original => exact writeCell_wf hm _ _

theorem Feeds.memory_wf {s t : State} (h : Feeds s t) (hm : Memory.wf s.window.memory) : Memory.wf t.window.memory := by
  induction h with
  | refl => exact hm
  | tail _ h ih => exact h.memory_wf ih

theorem Move.memory_wf {s t : State} (h : Move s t) (hm : Memory.wf s.window.memory) : Memory.wf t.window.memory := by
  cases h with
  | update h => exact h.memory ▸ hm
  | feed _ h => exact h.memory_wf hm
  | ready | arrived | cursor | rights | opened | abandoned | restored | reset | hold | mark | closing | decide | free |
    engine => exact hm
  | release =>
    obtain ⟨-, -, -, -, -, hw, -⟩ := releaseRule_frame s
    rwa [hw]
  | report =>
    obtain ⟨-, -, -, -, -, -, hw⟩ := reportReleased_frame s
    rwa [hw]
  | empty =>
    obtain ⟨h, -⟩ | ⟨-, -, h⟩ := endedToIdle_cases s <;> rwa [h]
  | runOut =>
    obtain ⟨-, -, -, -, -, -, hw⟩ := endFilling_frame (truncatePacket s)
    change Memory.wf (endFilling (truncatePacket s)).window.memory
    rw [hw]
    exact (Feeds.truncatePacket s).memory_wf hm
  | mended | sounded => exact writeCell_wf hm _ _

/-- What holds of a state and is kept by every move holds after every command. -/
theorem keeps_of_moves {P : State → Prop} (hmove : ∀ s t, Move s t → P s → P t) {c : Instr} {s t : State} (hs : P s)
    (h : exec c s = .next t) : P t := by
  have hmoves : ∀ {u : State}, Moves s u → P u := by
    intro u hu
    induction hu with
    | refl => exact hs
    | tail _ hm ih => exact hmove _ _ hm ih
  exact hmoves (exec_moves h)

/-- Settles O53: the memory changes by the writing of cells alone, which keeps the canonical form. -/
theorem windowMemoryKeepsCanonicalForm : Obligations.WindowMemoryKeepsCanonicalForm := by
  intro c s t hs h
  exact keeps_of_moves (P := fun s => Memory.wf s.window.memory) (fun _ _ => Move.memory_wf) hs h

/-! ## The lane settings (O55) -/

/-- One lane engine with settings in range, stored and taken. -/
def LaneEngine.InRange (e : LaneEngine) : Prop := e.settings.legal ∧ ∀ p ∈ e.work.takenSettings, p.legal

theorem settingsLegal_iff {s : State} : SettingsLegal s ↔ ∀ l, (s.engines.get l).InRange := by
  constructor
  · exact fun h l => ⟨h.1 l (Lane.mem_all l), h.2 l (Lane.mem_all l)⟩
  · exact fun h => ⟨fun l _ => (h l).1, fun l _ => (h l).2⟩

theorem LaneEngine.inRange_of_none {e : LaneEngine} (h : e.settings.legal) (hw : e.work = .none) : e.InRange :=
  ⟨h, by simp [hw, Work.takenSettings]⟩

theorem LaneSettings.legal_defaults : LaneSettings.defaults.legal := by decide

theorem EngineKept.inRange {s : State} {e x : LaneEngine} (h : EngineKept s e x) (he : e.InRange) : x.InRange := by
  refine ⟨h.settings he.1, fun p hp => ?_⟩
  obtain rfl | hp := h.taken p hp
  · exact he.1
  · exact he.2 p hp

theorem Update.engines {s t : State} (h : Update s t) : t.engines = s.engines := by
  cases h with
  | ports | blocks | track => rfl
  | list e =>
    obtain ⟨-, -, -, -, -, he, -⟩ := listEntry_frame e s
    exact he

theorem Feeds.engines {s t : State} (h : Feeds s t) : t.engines = s.engines := by
  induction h with
  | refl => rfl
  | tail _ h ih =>
    rw [← ih]
    cases h with
    | update h => exact h.engines
    | scan | slot | original | count => rfl

theorem inRange_mapEngine {s : State} {l : Lane} {f : LaneEngine → LaneEngine} {q : PerLane LaneEngine}
    (hq : q = s.engines.set l (f (s.engines.get l))) (hs : ∀ m, (s.engines.get m).InRange)
    (hf : EngineKept s (s.engines.get l) (f (s.engines.get l))) (m : Lane) : (q.get m).InRange := by
  rw [hq, PerLane.get_set]
  split
  · exact hf.inRange (hs l)
  · exact hs m

theorem Move.inRange {s t : State} (h : Move s t) (hs : ∀ l, (s.engines.get l).InRange) : ∀ l, (t.engines.get l).InRange := by
  cases h with
  | update h => rwa [h.engines]
  | feed _ h => rwa [Feeds.engines h]
  | ready | arrived | cursor | rights | hold | mark | closing | decide | free | sounded => exact hs
  | opened a x h =>
    intro l
    exact LaneEngine.inRange_of_none (by simpa only [setUpPass, PerLane.get_mapIdx, LaneEngine.openPass] using (hs l).1)
      (by simp [setUpPass, LaneEngine.openPass])
  | abandoned =>
    intro l
    exact LaneEngine.inRange_of_none (by simpa only [abandonPass, PerLane.get_mapIdx, LaneEngine.abandon] using (hs l).1)
      (by simp [abandonPass, LaneEngine.abandon])
  | restored =>
    intro l
    refine ⟨by simpa only [restoreDefaults, PerLane.get_mapIdx] using LaneSettings.legal_defaults, ?_⟩
    simpa only [restoreDefaults, PerLane.get_mapIdx] using (hs l).2
  | reset =>
    intro l
    exact LaneEngine.inRange_of_none (by simpa only [pinReset, State.reset, PerLane.get_same, LaneEngine.reset] using
      LaneSettings.legal_defaults) (by simp [pinReset, State.reset, LaneEngine.reset])
  | release =>
    obtain ⟨-, -, -, he, -⟩ := releaseRule_frame s
    rwa [he]
  | report =>
    obtain ⟨-, -, -, he, -⟩ := reportReleased_frame s
    rwa [he]
  | empty =>
    obtain ⟨h, -⟩ | ⟨-, -, h⟩ := endedToIdle_cases s <;> rwa [h]
  | runOut =>
    obtain ⟨-, -, -, -, he, -⟩ := endFilling_frame (truncatePacket s)
    change ∀ l, ((endFilling (truncatePacket s)).engines.get l).InRange
    rwa [he, Feeds.engines (Feeds.truncatePacket s)]
  | engine l f h => exact inRange_mapEngine rfl hs h
  | mended l b o v f hb ho hv h => exact inRange_mapEngine (s := s) rfl hs h

/-- Settles O55: an engine's settings change to values brought into range, or to the defaults, and a work is taken with the
settings stored. -/
theorem laneSettingsStayInRange : Obligations.LaneSettingsStayInRange := by
  intro c s t hs h
  rw [settingsLegal_iff] at hs ⊢
  exact keeps_of_moves (P := fun s => ∀ l, (s.engines.get l).InRange) (fun _ _ => Move.inRange) hs h

end Sys2Proof.Machine
end

section
/-! Invariants of all commands: the scan FIFO and the pass parameters (O54), and the tracker (O56). -/

namespace Sys2Proof.Machine

/-! ## The scan FIFO and the pass parameters (O54) -/

theorem Update.pass_scan {s t : State} (h : Update s t) : t.pass = s.pass ∧ t.scan = s.scan := by
  cases h with
  | ports | blocks | track => exact ⟨rfl, rfl⟩
  | list e =>
    obtain ⟨-, hp, hs, -⟩ := listEntry_frame e s
    exact ⟨hp, hs⟩

theorem Feeds.pass_fifo {s t : State} (h : Feeds s t) : t.pass = s.pass ∧ t.scan.fifo <:+ s.scan.fifo := by
  induction h with
  | refl => exact ⟨rfl, List.suffix_refl _⟩
  | tail _ h ih =>
    obtain ⟨hp, hf⟩ := ih
    cases h with
    | update h =>
      obtain ⟨hp', hs'⟩ := h.pass_scan
      exact ⟨hp'.trans hp, hs' ▸ hf⟩
    | scan x hnext hfifo => exact ⟨hp, hfifo.trans hf⟩
    | slot | original | count => exact ⟨hp, hf⟩

/-- While the assembler has an entry to act on, the pass is open and its run-out has not ended. -/
theorem InputLegal.open_pass {s : State} (h : InputLegal s) (hopen : s.scan.fifo ≠ [] ∨ s.scan.stall.waiting = true) :
    s.pass.state ≠ .idle ∧ s.pass.state ≠ .ended ∧ s.pass.runOutEnded ≠ true := by
  obtain ⟨-, h, -⟩ := h
  have hno : ¬(s.pass.state = .idle ∨ s.pass.state = .ended ∨ s.pass.runOutEnded = true) := by
    intro hc
    obtain ⟨hfifo, hstall⟩ := h hc
    obtain hf | hw := hopen
    · exact hf hfifo
    · rw [hstall] at hw
      cases hw
  tauto

theorem InputLegal.congr {s t : State} (h : InputLegal s) (hp : t.pass = s.pass) (hf : t.scan.fifo = s.scan.fifo)
    (hs : t.scan.stall = s.scan.stall) : InputLegal t := by
  unfold InputLegal
  rwa [hp, hf, hs]

theorem ParametersLegal.congr {s t : State} (h : ParametersLegal s) (hp : t.pass = s.pass) : ParametersLegal t := by
  unfold ParametersLegal
  rwa [hp]

/-- A change of pass state and run-out mark alone keeps the parameters in range, where it opens no pass. -/
theorem ParametersLegal.move {s t : State} (h : ParametersLegal s) (x : PassState) (r : Bool)
    (hp : t.pass = { s.pass with state := x, runOutEnded := r }) (hidle : x ≠ .idle → s.pass.state ≠ .idle) :
    ParametersLegal t := by
  obtain ⟨hmask, hlimits⟩ := h
  unfold ParametersLegal
  rw [hp]
  exact ⟨fun hx => hmask (hidle hx), hlimits⟩

/-- The parameters that an OPEN sets lie in their ranges (R152). -/
theorem openParameters_legal {a : OpenArgs} {x : PassControl} (h : openParameters a = some x) :
    x.laneMask ≠ 0#4 ∧ 128 ≤ x.perfMin ∧ x.perfMin ≤ x.perfMax ∧ x.perfMax ≤ 65535 ∧ 4 ≤ x.spliceSpan ∧
      x.spliceSpan ≤ 48 ∧ x.state = .running ∧ x.runOutEnded = false := by
  unfold openParameters at h
  split at h
  · cases h
  · next hmask =>
    split at h
    · cases h
      have hmin := clampNat_range (lo := 128) (hi := 65535) (v := a.perfMin.toNat) (by decide)
      have hmax := clampNat_range (v := a.perfMax.toNat) hmin.2
      have hspan := clampNat_range (lo := 4) (hi := 48) (v := a.spliceSpan.toNat) (by decide)
      refine ⟨fun h0 => hmask ?_, hmin.1, hmax.1, hmax.2, hspan.1, hspan.2, rfl, rfl⟩
      have h4 := congrArg BitVec.toNat h0
      simp only [BitVec.extractLsb'_toNat, Nat.shiftRight_zero, BitVec.toNat_ofNat] at h4
      rw [← BitVec.toNat_inj, BitVec.toNat_ofNat]
      omega
    · cases h

theorem truncatePacket_scan (s : State) :
    (truncatePacket s).scan = { s.scan with packet := .none, heldWord := none, context := none } := by
  unfold truncatePacket
  split <;> rfl

/-- An end of the pass: nothing is left in Scan Input in the state that the pass ends from. -/
theorem InputLegal.ended {s t : State} (h : InputLegal s)
    (hend : s.pass.state = .idle ∨ s.pass.state = .ended ∨ s.pass.runOutEnded = true) (hscan : t.scan = s.scan)
    (hrun : t.pass.state ≠ .running) : InputLegal t := by
  obtain ⟨hfifo, hquiet, -⟩ := h
  unfold InputLegal
  rw [hscan]
  exact ⟨hfifo, fun _ => hquiet hend, fun hr => absurd hr hrun⟩

/-- The parameters, kept by every move: an OPEN sets them clamped, and else the pass state alone changes (R151, R152). -/
theorem Move.parametersLegal {s t : State} (h : Move s t) (hp : ParametersLegal s) : ParametersLegal t := by
  have hreport : ∀ u : State, u.pass = s.pass → ParametersLegal (reportReleased u) := by
    intro u hu
    obtain hr | ⟨hc, -, -, hr⟩ := reportReleased_cases u
    · rw [hr]
      exact hp.congr hu
    · rw [hr]
      obtain ⟨he, -⟩ | ⟨-, -, he⟩ := endedToIdle_cases { u with pass := { u.pass with state := .ended } } <;> rw [he]
      · exact (hp.congr hu).move .ended u.pass.runOutEnded rfl (fun _ => by rw [hc]; decide)
      · exact (hp.congr hu).move .idle u.pass.runOutEnded rfl (fun hx => absurd rfl hx)
  cases h with
  | update h => exact hp.congr h.pass_scan.1
  | feed _ h => exact hp.congr (Feeds.pass_fifo h).1
  | ready | arrived | cursor | rights | hold | mark | decide | free | engine | restored | mended | sounded =>
    exact hp.congr rfl
  | opened a x hx =>
    obtain ⟨hmask, h1, h2, h3, h4, h5, -⟩ := openParameters_legal hx
    exact ⟨fun _ => hmask, h1, h2, h3, h4, h5⟩
  | abandoned => exact hp.move .idle false rfl (fun hx => absurd rfl hx)
  | reset => exact ⟨fun hx => absurd rfl hx, by simp [pinReset, State.reset, PassControl.reset]⟩
  | closing hrun => exact hp.move .closing s.pass.runOutEnded rfl (fun _ => by rw [hrun]; decide)
  | release =>
    rw [releaseRule_eq]
    split
    · exact hp
    · exact hreport _ rfl
  | report => exact hreport s rfl
  | empty =>
    obtain ⟨h, -⟩ | ⟨-, -, h⟩ := endedToIdle_cases s <;> rw [h]
    · exact hp
    · exact hp.move .idle s.pass.runOutEnded rfl (fun hx => absurd rfl hx)
  | runOut =>
    obtain ⟨-, hpass, -⟩ := endFilling_frame (truncatePacket s)
    have hpass' : (ranOut s).pass = { s.pass with state := s.pass.state, runOutEnded := true } := by
      rw [← (Feeds.pass_fifo (Feeds.truncatePacket s)).1, ← hpass]
      rfl
    exact hp.move s.pass.state true hpass' id

/-- The law of the scan FIFO, kept by every move. -/
theorem Move.inputLegal {s t : State} (h : Move s t) (hi : InputLegal s) : InputLegal t := by
  have hreport : ∀ u : State, u.pass = s.pass → u.scan = s.scan → InputLegal (reportReleased u) := by
    intro u hu hscan
    have hu' : InputLegal u := hi.congr hu (by rw [hscan]) (by rw [hscan])
    obtain hr | ⟨-, hro, -, hr⟩ := reportReleased_cases u
    · rwa [hr]
    · rw [hr]
      obtain ⟨he, -⟩ | ⟨-, -, he⟩ := endedToIdle_cases { u with pass := { u.pass with state := .ended } } <;> rw [he] <;>
        exact hu'.ended (.inr (.inr hro)) rfl (by simp)
  cases h with
  | update h =>
    obtain ⟨hpass, hscan⟩ := h.pass_scan
    exact hi.congr hpass (by rw [hscan]) (by rw [hscan])
  | feed hopen h =>
    obtain ⟨hpass, hfifo⟩ := Feeds.pass_fifo h
    obtain ⟨hidle, hended, hrun⟩ := hi.open_pass hopen
    refine ⟨hfifo.length_le.trans hi.1, fun hc => ?_, ?_⟩
    · rw [hpass] at hc
      tauto
    · rw [hpass]
      exact hi.2.2
  | ready | cursor | rights | hold | mark | decide | free | engine | restored | mended | sounded => exact hi.congr rfl rfl rfl
  | arrived x hrun hlen =>
    refine ⟨hlen hi.1, fun hc => ?_, hi.2.2⟩
    rw [State.setScan_pass, hrun, hi.2.2 hrun] at hc
    simp at hc
  | opened a x hx =>
    obtain ⟨-, -, -, -, -, -, -, hro⟩ := openParameters_legal hx
    exact ⟨Nat.zero_le _, fun _ => ⟨rfl, rfl⟩, fun _ => hro⟩
  | abandoned | reset => exact ⟨Nat.zero_le _, fun _ => ⟨rfl, rfl⟩, fun _ => rfl⟩
  | closing hrun =>
    refine ⟨hi.1, fun hc => ?_, fun hc => by simp at hc⟩
    simp [hi.2.2 hrun] at hc
  | release =>
    rw [releaseRule_eq]
    split
    · exact hi
    · exact hreport _ rfl rfl
  | report => exact hreport s rfl rfl
  | empty =>
    obtain ⟨h, -⟩ | ⟨he, -, h⟩ := endedToIdle_cases s <;> rw [h]
    · exact hi
    · exact hi.ended (.inr (.inl he)) rfl (by simp)
  | runOut hdue =>
    simp only [runOutDue, Bool.and_eq_true, beq_iff_eq, List.isEmpty_iff, Bool.not_eq_true'] at hdue
    obtain ⟨⟨⟨hc, -⟩, hfifo⟩, hstall⟩ := hdue
    obtain ⟨-, hpass, hscan, -⟩ := endFilling_frame (truncatePacket s)
    have hscan' : (ranOut s).scan = _ := hscan.trans (truncatePacket_scan s)
    have hstate : (ranOut s).pass.state = s.pass.state := by
      rw [← (Feeds.pass_fifo (Feeds.truncatePacket s)).1, ← hpass]
      rfl
    refine ⟨?_, fun _ => ?_, fun hr => ?_⟩
    · rw [hscan']
      exact hi.1
    · rw [hscan']
      exact ⟨hfifo, hstall⟩
    · exact absurd (hc.symm.trans (hstate.symm.trans hr)) (by decide)

/-- Settles O54: an entry is taken or stalled in an open pass alone, and the pass opens with its parameters clamped. -/
theorem inputAndParametersStayLegal : Obligations.InputAndParametersStayLegal := by
  intro c s t hi hp h
  exact keeps_of_moves (P := fun s => InputLegal s ∧ ParametersLegal s)
    (fun _ _ hm hu => ⟨hm.inputLegal hu.1, hm.parametersLegal hu.2⟩) ⟨hi, hp⟩ h

/-! ## The tracker (O56) -/

theorem TrackerLegal.congr {s t : State} (h : TrackerLegal s) (ht : t.tracker = s.tracker)
    (hmin : t.pass.perfMin = s.pass.perfMin) (hmax : t.pass.perfMax = s.pass.perfMax) : TrackerLegal t := by
  unfold TrackerLegal
  rwa [ht, hmin, hmax]

/-- A tracker as the resets leave it is legal in every part. -/
theorem trackerLegal_of_reset {s : State} (h : s.tracker = Tracker.reset) : TrackerLegal s := by
  unfold TrackerLegal
  rw [h]
  exact ⟨rfl, by simp [Tracker.reset], by simp [Tracker.reset], by decide, by decide, by decide, by decide⟩

/-- A tracker whose held events are gone is legal. -/
theorem TrackerLegal.dropHeld {s t : State} (h : TrackerLegal s) (hp : t.pass.perfMin = s.pass.perfMin)
    (hp' : t.pass.perfMax = s.pass.perfMax) (ht : t.tracker = { s.tracker with heldEvents := [], heldStart := none }) :
    TrackerLegal t := by
  obtain ⟨h1, h2, h3, h4, h5, -, -⟩ := h
  unfold TrackerLegal
  rw [ht, hp, hp']
  exact ⟨h1, h2, h3, h4, h5, Nat.zero_le _, by simp⟩

theorem Update.trackerLegal {s t : State} (h : Update s t) (hp : ParametersLegal s) (hs : TrackerLegal s) :
    TrackerLegal t := by
  cases h with
  | ports | blocks => exact hs.congr rfl rfl rfl
  | track x hheld hlegal => exact hlegal hp hs
  | list e =>
    obtain ⟨-, hpass, -, ht, -⟩ := listEntry_frame e s
    exact hs.congr ht (by rw [hpass]) (by rw [hpass])

theorem Feeds.trackerLegal {s t : State} (h : Feeds s t) (hp : ParametersLegal s) (hs : TrackerLegal s) :
    TrackerLegal t := by
  induction h with
  | refl => exact hs
  | tail hst h ih =>
    have hp' := hp.congr (Feeds.pass_fifo hst).1
    cases h with
    | update h => exact h.trackerLegal hp' ih
    | slot => exact ih.dropHeld rfl rfl rfl
    | scan | original | count => exact ih.congr rfl rfl rfl

/-- The law of the tracker, kept by every move where the pass parameters are in range. -/
theorem Move.trackerLegal {s t : State} (h : Move s t) (hp : ParametersLegal s) (hs : TrackerLegal s) : TrackerLegal t := by
  cases h with
  | update h => exact h.trackerLegal hp hs
  | feed _ h => exact Feeds.trackerLegal h hp hs
  | ready | arrived | cursor | rights | restored | hold | mark | closing | decide | free | engine | mended | sounded =>
    exact hs.congr rfl rfl rfl
  | opened | abandoned | reset => exact trackerLegal_of_reset rfl
  | release =>
    obtain h | ⟨ks, -, -, h | ⟨-, -, -, h⟩⟩ := releaseRule_cases s <;> rw [h]
    · exact hs
    · exact hs.congr rfl rfl rfl
    · exact hs.congr rfl rfl rfl
  | report =>
    obtain h | ⟨-, -, -, h⟩ := reportReleased_cases s
    · rwa [h]
    · rw [h]
      obtain ⟨h, -⟩ | ⟨-, -, h⟩ := endedToIdle_cases { s with pass := { s.pass with state := .ended } } <;> rw [h] <;>
        exact hs.congr rfl rfl rfl
  | empty =>
    obtain ⟨h, -⟩ | ⟨-, -, h⟩ := endedToIdle_cases s <;> rw [h]
    · exact hs
    · exact hs.congr rfl rfl rfl
  | runOut =>
    obtain ⟨-, hpass, -, ht, -⟩ := endFilling_frame (truncatePacket s)
    have hu : TrackerLegal (endFilling (truncatePacket s)) :=
      (Feeds.trackerLegal (Feeds.truncatePacket s) hp hs).congr ht (by rw [hpass]) (by rw [hpass])
    exact hu.dropHeld rfl rfl rfl

/-- Settles O56: marks, reports and slips change the tracker as its law says, and a block secured takes what it holds. -/
theorem trackerStaysLegal : Obligations.TrackerStaysLegal := by
  intro c s t hp hs h
  exact (keeps_of_moves (P := fun s => ParametersLegal s ∧ TrackerLegal s)
    (fun _ _ hm hu => ⟨hm.parametersLegal hu.1, hm.trackerLegal hu.1 hu.2⟩) ⟨hp, hs⟩ h).2

end Sys2Proof.Machine
end

section
/-! The window in its legal form: what its order gives, and that every command keeps it with the law of the next position
(O57). -/

namespace Sys2Proof.Machine

/-! ## The order of the window -/

/-- What the legal form says of one block (R35 to R39). -/
abbrev Block.Legal (s : State) (b : Block) : Prop :=
  b.slot < Config.slotCount ∧ b.number < s.window.counter ∧ b.first = firstPositionOf s b.number ∧
    b.fillLegal ∧ b.events.length ≤ Config.maxEvents ∧
    ∀ l ∈ Lane.all, (b.lanes.get l).isSome = s.pass.laneMask.getLsbD l.toNat

/-- Only the newest block is FILLING, and the RELEASED blocks are the oldest ones. -/
abbrev StatesOrdered (b c : Block) : Prop := b.state ≠ .filling ∧ (c.state = .released → b.state = .released)

theorem numbers_rising {bs : List Block} (h : bs.IsChain (fun b c => c.number = b.number + 1)) :
    bs.Pairwise (fun b c => b.number < c.number) := by
  have htrans : IsTrans Block (fun b c => b.number < c.number) := ⟨fun _ _ _ => Nat.lt_trans⟩
  exact List.isChain_iff_pairwise.mp (h.imp (fun b c (hbc : c.number = b.number + 1) => hbc ▸ Nat.lt_succ_self _))

theorem WindowLegal.rising {s : State} (h : WindowLegal s) : s.window.blocks.Pairwise (fun b c => b.number < c.number) :=
  numbers_rising h.2.2.1

theorem WindowLegal.eq_of_number {s : State} (h : WindowLegal s) {b c : Block} (hb : b ∈ s.window.blocks)
    (hc : c ∈ s.window.blocks) (hn : b.number = c.number) : b = c := by
  have hnodup : (s.window.blocks.map (fun b => b.number)).Nodup :=
    List.pairwise_map.mpr (h.rising.imp (fun hlt => Nat.ne_of_lt hlt))
  exact List.inj_on_of_nodup_map hnodup hb hc hn

theorem blockNumbered_of_mem {s : State} (h : WindowLegal s) {b : Block} (hb : b ∈ s.window.blocks) :
    blockNumbered s b.number = some b := by
  obtain ⟨c, hc⟩ := Option.isSome_iff_exists.mp
    (List.find?_isSome.mpr ⟨b, hb, beq_self_eq_true b.number⟩ :
      (s.window.blocks.find? (fun c => c.number == b.number)).isSome = true)
  obtain ⟨hmem, hnum⟩ := mem_of_blockNumbered (s := s) hc
  rw [blockNumbered, hc, h.eq_of_number hmem hb hnum]

theorem mem_of_fillingBlock {s : State} {b : Block} (h : fillingBlock s = some b) :
    b ∈ s.window.blocks ∧ b.state = .filling :=
  ⟨List.mem_of_find?_eq_some h, by simpa using List.find?_some h⟩

theorem fillingBlock_eq_none {s : State} : fillingBlock s = none ↔ ∀ b ∈ s.window.blocks, b.state ≠ .filling := by
  simp [fillingBlock]

/-- The FILLING block is the newest, and the only one. -/
theorem WindowLegal.filling_newest {s : State} (h : WindowLegal s) {b : Block} (hb : fillingBlock s = some b) :
    ∃ older, s.window.blocks = older ++ [b] ∧ ∀ c ∈ older, c.state ≠ .filling := by
  obtain ⟨hmem, hstate⟩ := mem_of_fillingBlock hb
  obtain ⟨older, newer, hsplit⟩ := List.append_of_mem hmem
  obtain ⟨-, -, -, hpair, -⟩ := h
  rw [hsplit, List.pairwise_append, List.pairwise_cons] at hpair
  obtain ⟨-, ⟨hnewer, -⟩, holder⟩ := hpair
  have hnil : newer = [] := List.eq_nil_iff_forall_not_mem.mpr (fun c hc => (hnewer c hc).1 hstate)
  exact ⟨older, by rw [hsplit, hnil], fun c hc => (holder c hc b (List.mem_cons_self ..)).1⟩

theorem mem_of_drainHead {s : State} {b : Block} (h : drainHead s = some b) : b ∈ s.window.blocks ∧ b.state = .released :=
  ⟨List.mem_of_find?_eq_some h, by simpa using List.find?_some h⟩

/-- The drain head is the oldest block. -/
theorem WindowLegal.head_oldest {s : State} (h : WindowLegal s) {b : Block} (hb : drainHead s = some b) :
    ∃ newer, s.window.blocks = b :: newer := by
  obtain ⟨-, hstate⟩ := mem_of_drainHead hb
  obtain ⟨-, -, -, hpair, -⟩ := h
  unfold drainHead at hb
  cases hbs : s.window.blocks with
  | nil =>
    rw [hbs] at hb
    cases hb
  | cons a rest =>
    rw [hbs] at hb hpair
    have ha : a.state = .released := by
      obtain rfl | hrest := List.mem_cons.mp (List.mem_of_find?_eq_some hb)
      · exact hstate
      · exact ((List.pairwise_cons.mp hpair).1 b hrest).2 hstate
    rw [List.find?_cons_of_pos (by simp [ha])] at hb
    cases hb
    exact ⟨rest, rfl⟩

/-- The blocks that stay when the oldest one is freed. -/
theorem filter_number_ne {b : Block} {newer : List Block}
    (h : (b :: newer).Pairwise (fun b c => b.number < c.number)) :
    (b :: newer).filter (fun c => c.number != b.number) = newer := by
  rw [List.filter_cons_of_neg (by simp)]
  exact List.filter_eq_self.mpr (fun c hc => by
    have := (List.pairwise_cons.mp h).1 c hc
    simpa using Nat.ne_of_gt this)

/-! ## Blocks changed where they stand -/

theorem Block.legal_congr {s t : State} {b c : Block} (h : b.Legal s) (hs : c.slot = b.slot) (hn : c.number = b.number)
    (hf : c.first = b.first) (hl : ∀ l, (c.lanes.get l).isSome = (b.lanes.get l).isSome) (hfill : c.fillLegal)
    (he : c.events.length ≤ Config.maxEvents) (hcount : s.window.counter ≤ t.window.counter)
    (hstart : t.pass.start = s.pass.start) (hmask : t.pass.laneMask = s.pass.laneMask) : c.Legal t := by
  obtain ⟨h1, h2, h3, -, -, h6⟩ := h
  refine ⟨hs ▸ h1, hn ▸ Nat.lt_of_lt_of_le h2 hcount, ?_, hfill, he, fun l hm => ?_⟩
  · rw [hf, h3, hn, firstPositionOf, firstPositionOf, hstart]
  · rw [hl, h6 l hm, hmask]

/-- The legal form rests on the blocks, the counter, the hold and the pass alone. -/
theorem WindowLegal.congr {s t : State} (h : WindowLegal s) (hb : t.window.blocks = s.window.blocks)
    (hc : t.window.counter = s.window.counter) (hh : t.window.reviewHold = s.window.reviewHold) (hp : t.pass = s.pass) :
    WindowLegal t := by
  unfold WindowLegal firstPositionOf at *
  rwa [hb, hc, hh, hp]

/-- A change of the blocks where they stand, with the pass state or the run-out mark moved on. -/
theorem WindowLegal.map {s t : State} (h : WindowLegal s) (f : Block → Block)
    (hblocks : t.window.blocks = s.window.blocks.map f) (hcount : t.window.counter = s.window.counter)
    (hhold : t.window.reviewHold = s.window.reviewHold) (hstart : t.pass.start = s.pass.start)
    (hmask : t.pass.laneMask = s.pass.laneMask) (hid : ∀ b, (f b).slot = b.slot ∧ (f b).number = b.number ∧
      (f b).first = b.first ∧ ∀ l, ((f b).lanes.get l).isSome = (b.lanes.get l).isSome)
    (hfill : ∀ b ∈ s.window.blocks, b.fillLegal → b.events.length ≤ Config.maxEvents →
      (f b).fillLegal ∧ (f b).events.length ≤ Config.maxEvents)
    (hpair : (s.window.blocks.map f).Pairwise StatesOrdered)
    (hidle : t.pass.state = .idle → s.pass.state = .idle ∨ s.window.blocks = [])
    (hended : t.pass.state = .ended → ∀ b ∈ s.window.blocks, (f b).state = .released)
    (hrun : t.pass.runOutEnded = false → s.pass.runOutEnded = false) : WindowLegal t := by
  obtain ⟨h1, h2, h3, -, h5, h6, h7, -, h9⟩ := h
  refine ⟨?_, ?_, ?_, ?_, ?_, ?_, ?_, ?_, ?_⟩
  · rw [hblocks]
    intro c hc
    obtain ⟨b, hb, rfl⟩ := List.mem_map.mp hc
    obtain ⟨hs, hn, hf, hl⟩ := hid b
    have hlegal : b.Legal s := h1 b hb
    obtain ⟨hfill', hev⟩ := hfill b hb hlegal.2.2.2.1 hlegal.2.2.2.2.1
    exact Block.legal_congr hlegal hs hn hf hl hfill' hev (Nat.le_of_eq hcount.symm) hstart hmask
  · have hslots : ((s.window.blocks.map f).map (fun b => b.slot)) = s.window.blocks.map (fun b => b.slot) := by
      simp only [List.map_map, Function.comp_def, (hid _).1]
    rwa [hblocks, hslots]
  · rw [hblocks, List.isChain_map]
    exact h3.imp (fun b c hbc => by rw [(hid b).2.1, (hid c).2.1, hbc])
  · rwa [hblocks]
  · rwa [hcount]
  · rwa [hhold]
  · intro hi
    rw [hblocks, List.map_eq_nil_iff]
    obtain hi | hi := hidle hi
    · exact h7 hi
    · exact hi
  · intro he
    rw [hblocks]
    intro c hc
    obtain ⟨b, hb, rfl⟩ := List.mem_map.mp hc
    exact hended he b hb
  · intro hr c hc
    rw [hblocks, List.getLast?_map] at hc
    obtain ⟨b, hb, rfl⟩ := Option.map_eq_some_iff.mp hc
    rw [(hid b).2.1, hcount]
    exact h9 (hrun hr) b hb

theorem NextPositionLaw.congr {s t : State} (h : NextPositionLaw s) (hb : t.window.blocks = s.window.blocks)
    (hc : t.window.counter = s.window.counter) (hp : t.pass = s.pass) (hn : t.scan.next = s.scan.next) :
    NextPositionLaw t := by
  unfold NextPositionLaw fillingBlock firstPositionOf at *
  rwa [hb, hc, hp, hn]

/-- A change of the blocks that keeps which of them is FILLING, with its place. -/
theorem NextPositionLaw.map {s t : State} (h : NextPositionLaw s) (f : Block → Block)
    (hblocks : t.window.blocks = s.window.blocks.map f) (hcount : t.window.counter = s.window.counter)
    (hnext : t.scan.next = s.scan.next) (hstart : t.pass.start = s.pass.start)
    (hf : ∀ b, ((f b).state = .filling ↔ b.state = .filling) ∧ (f b).first = b.first ∧ (f b).fill = b.fill)
    (hopen : (t.pass.state = .running ∨ t.pass.state = .closing) → t.pass.runOutEnded = false →
      (s.pass.state = .running ∨ s.pass.state = .closing) ∧ s.pass.runOutEnded = false) : NextPositionLaw t := by
  intro hstate hro
  obtain ⟨hstate', hro'⟩ := hopen hstate hro
  obtain ⟨hsome, hnone⟩ := h hstate' hro'
  have hfilling : fillingBlock t = (fillingBlock s).map f := by
    unfold fillingBlock
    rw [hblocks, List.find?_map]
    congr 2
    funext b
    exact Bool.eq_iff_iff.mpr (by simpa only [Function.comp_apply, beq_iff_eq] using (hf b).1)
  rw [hfilling, hnext]
  constructor
  · intro c hc
    obtain ⟨b, hb, rfl⟩ := Option.map_eq_some_iff.mp hc
    rw [(hf b).2.1, (hf b).2.2]
    exact hsome b hb
  · intro hn
    rw [hnone (Option.map_eq_none_iff.mp hn), firstPositionOf, firstPositionOf, hstart, hcount]

/-! ## The law of the window -/

/-- The window in its legal form with the law of the next position, and the held events within their number: what every move
keeps. -/
structure Placed (s : State) : Prop where
  window : WindowLegal s
  law    : NextPositionLaw s
  held   : s.tracker.heldEvents.length ≤ Config.maxEvents

theorem Placed.congr {s t : State} (h : Placed s) (hb : t.window.blocks = s.window.blocks)
    (hc : t.window.counter = s.window.counter) (hh : t.window.reviewHold = s.window.reviewHold) (hp : t.pass = s.pass)
    (hn : t.scan.next = s.scan.next) (ht : t.tracker = s.tracker) : Placed t :=
  ⟨h.window.congr hb hc hh hp, h.law.congr hb hc hp hn, ht ▸ h.held⟩

theorem Block.Kept.statesOrdered {b b' c c' : Block} (hb : Block.Kept b b') (hc : Block.Kept c c')
    (h : StatesOrdered b c) : StatesOrdered b' c' := by
  obtain ⟨h1, h2⟩ := h
  unfold StatesOrdered
  obtain hb' | ⟨hb', hb''⟩ := hb.state <;> obtain hc' | ⟨hc', hc''⟩ := hc.state
  · rw [hb', hc']
    exact ⟨h1, h2⟩
  · rw [hb', hc'']
    exact ⟨h1, fun hr => absurd hr (by decide)⟩
  · rw [hb'', hc']
    exact ⟨by decide, fun hr => absurd (hb'.symm.trans (h2 hr)) (by decide)⟩
  · rw [hb'', hc'']
    exact ⟨by decide, fun hr => absurd hr (by decide)⟩

theorem Block.Kept.fillLegal {b c : Block} (h : Block.Kept b c) (hb : b.fillLegal) : c.fillLegal := by
  unfold Block.fillLegal at *
  rw [h.fill]
  obtain hs | ⟨hs, hs'⟩ := h.state
  · rwa [hs]
  · rw [hs'] 
    rwa [hs] at hb

theorem Block.Kept.filling_iff {b c : Block} (h : Block.Kept b c) : c.state = .filling ↔ b.state = .filling := by
  obtain hs | ⟨hs, hs'⟩ := h.state
  · rw [hs]
  · rw [hs, hs']
    decide

theorem Block.Kept.released {b c : Block} (h : Block.Kept b c) (hb : b.state = .released) : c.state = .released := by
  obtain hs | ⟨hs, -⟩ := h.state
  · rw [hs, hb]
  · exact absurd (hs.symm.trans hb) (by decide)

theorem pairwise_map_of_imp {f : Block → Block} {bs : List Block} (hf : ∀ b c, StatesOrdered b c → StatesOrdered (f b) (f c))
    (h : bs.Pairwise StatesOrdered) : (bs.map f).Pairwise StatesOrdered :=
  List.pairwise_map.mpr (h.imp (fun hbc => hf _ _ hbc))

theorem Update.placed {s t : State} (h : Update s t) (hs : Placed s) : Placed t := by
  cases h with
  | ports => exact hs.congr rfl rfl rfl rfl rfl rfl
  | blocks f hf =>
    obtain ⟨hw, hlaw, hheld⟩ := hs
    refine ⟨hw.map f rfl rfl rfl rfl rfl (fun b => ⟨(hf b).slot, (hf b).number, (hf b).first, (hf b).lanes⟩)
      (fun b _ hfill hev => ⟨(hf b).fillLegal hfill, (hf b).events hev⟩)
      (pairwise_map_of_imp (fun b c => (hf b).statesOrdered (hf c)) hw.2.2.2.1) .inl
      (fun he b hb => (hf b).released (hw.2.2.2.2.2.2.2.1 he b hb)) id, ?_, hheld⟩
    exact hlaw.map f rfl rfl rfl rfl (fun b => ⟨(hf b).filling_iff, (hf b).first, (hf b).fill⟩) (fun h h' => ⟨h, h'⟩)
  | track x hheld => exact ⟨hs.window.congr rfl rfl rfl rfl, hs.law.congr rfl rfl rfl rfl, hheld hs.held⟩
  | list e =>
    obtain ⟨-, hp, hscan, ht, hwin, -⟩ := listEntry_frame e s
    exact hs.congr (by rw [hwin]) (by rw [hwin]) (by rw [hwin]) hp (by rw [hscan]) ht

/-- The pass is open and its run-out has not ended: what every act of Scan Input rests on (R4, R18, R20). -/
def Running (s : State) : Prop := (s.pass.state = .running ∨ s.pass.state = .closing) ∧ s.pass.runOutEnded = false

theorem isSome_freshRecords (mask : BitVec 4) (l : Lane) : ((freshRecords mask).get l).isSome = mask.getLsbD l.toNat := by
  unfold freshRecords
  simp only [PerLane.get_mapIdx]
  split <;> simp_all

/-- A block secured where none is FILLING: the newest one, empty, at the next position (R17, R31, R35). -/
theorem takeSlot_placed {s : State} {slot : Nat} (hs : Placed s) (hrun : Running s) (hnone : fillingBlock s = none)
    (hcount : s.window.counter < Config.maxBlocks) (hfree : freeSlot s = some slot) : Placed (takeSlot slot s) := by
  obtain ⟨⟨h1, h2, h3, h4, -, h6, -, -, h9⟩, hlaw, hheld⟩ := hs
  obtain ⟨hslot, hother⟩ := freeSlot_free hfree
  have hnonfill := fillingBlock_eq_none.mp hnone
  have hblocks : (takeSlot slot s).window.blocks = s.window.blocks ++ [securedBlock s slot] := rfl
  refine ⟨⟨?_, ?_, ?_, ?_, hcount, h6, ?_, ?_, ?_⟩, ?_, Nat.zero_le _⟩
  · intro b hb
    obtain hb | hb := List.mem_append.mp hb
    · have hb' : b.Legal s := h1 b hb
      exact Block.legal_congr hb' rfl rfl rfl (fun _ => rfl) hb'.2.2.2.1 hb'.2.2.2.2.1 (Nat.le_succ _) rfl rfl
    · cases List.mem_singleton.mp hb
      exact ⟨hslot, Nat.lt_succ_self _, rfl, by simp [Block.fillLegal, securedBlock, Config.blockSize],
        by simpa [securedBlock, securedEvents] using hheld,
        fun l _ => isSome_freshRecords _ l⟩
  · rw [hblocks, List.map_append, List.map_singleton, ← List.concat_eq_append]
    refine List.Nodup.concat ?_ h2
    rintro hmem
    obtain ⟨b, hb, hbs⟩ := List.mem_map.mp hmem
    exact hother b hb hbs
  · rw [hblocks, List.isChain_append]
    refine ⟨h3, .singleton _, fun b hb c hc => ?_⟩
    cases hc
    exact (h9 hrun.2 b hb).symm
  · rw [hblocks, List.pairwise_append]
    refine ⟨h4, .cons (by simp) .nil, fun b hb c hc => ?_⟩
    cases List.mem_singleton.mp hc
    exact ⟨hnonfill b hb, fun hr => nomatch hr⟩
  · exact fun hi => absurd hi (by
      obtain hr | hr := hrun.1 <;> exact hr ▸ (by decide))
  · exact fun hi => absurd hi (by
      obtain hr | hr := hrun.1 <;> exact hr ▸ (by decide))
  · intro _ b hb
    rw [hblocks, List.getLast?_concat] at hb
    cases hb
    rfl
  · intro _ _
    have hfill : fillingBlock (takeSlot slot s) = some (securedBlock s slot) := by
      unfold fillingBlock at hnone ⊢
      rw [hblocks, List.find?_append, hnone, Option.none_or]
      rfl
    rw [hfill]
    refine ⟨fun b hb => ?_, fun h => by cases h⟩
    cases hb
    rw [show (takeSlot slot s).scan.next = s.scan.next from rfl, (hlaw hrun.1 hrun.2).2 hnone]
    simp [securedBlock]

/-- The next position counted: the FILLING block grows by it, and is FULL with 2048 (R16, R19). -/
theorem advancePosition_placed {s : State} (hs : Placed s) (hrun : Running s) (hfill : (fillingBlock s).isSome = true) :
    Placed (advancePosition s) := by
  obtain ⟨b, hb⟩ := Option.isSome_iff_exists.mp hfill
  obtain ⟨hw, hlaw, hheld⟩ := hs
  obtain ⟨hmem, hstate⟩ := mem_of_fillingBlock hb
  have hnext := (hlaw hrun.1 hrun.2).1 b hb
  obtain ⟨older, hsplit, holder⟩ := hw.filling_newest hb
  have hended : s.pass.state ≠ .ended := by
    obtain hr | hr := hrun.1 <;> rw [hr] <;> decide
  have hwin : WindowLegal (advancePosition s) := by
    refine hw.map _ rfl rfl rfl rfl rfl (fun c => ?_) (fun c _ hcfill hev => ?_) (pairwise_map_of_imp (fun c d hcd => ?_) hw.2.2.2.1)
      .inl (fun he => absurd he hended) id
    · split <;> exact ⟨rfl, rfl, rfl, fun _ => rfl⟩
    · refine ⟨?_, by split <;> exact hev⟩
      unfold Block.fillLegal at hcfill ⊢
      by_cases hc : c.state = .filling
      · rw [if_pos hc] at hcfill
        by_cases hfull : c.fill + 1 = Config.blockSize
        · rw [if_pos hc]
          simp only [if_pos hfull]
          exact ⟨Nat.succ_pos _, Nat.le_of_eq hfull⟩
        · rw [if_pos hc]
          simp only [if_neg hfull, if_true]
          exact Nat.lt_of_le_of_ne hcfill hfull
      · rw [if_neg hc, if_neg hc]
        rwa [if_neg hc] at hcfill
    · obtain ⟨hc, hd⟩ := hcd
      rw [if_neg hc]
      refine ⟨hc, fun hr => hd ?_⟩
      split at hr
      · dsimp only at hr
        split at hr <;> cases hr
      · exact hr
  refine ⟨hwin, fun _ _ => ?_, hheld⟩
  have hscan : (advancePosition s).scan.next = s.scan.next + 1#40 := rfl
  have hblocks : (advancePosition s).window.blocks = older ++
      [{ b with fill := b.fill + 1, state := if b.fill + 1 = Config.blockSize then .full else .filling }] := by
    change s.window.blocks.map _ = _
    rw [hsplit, List.map_append, List.map_singleton, if_pos hstate]
    congr 1
    exact (List.map_congr_left (fun c hc => if_neg (holder c hc))).trans (List.map_id _)
  have hnone : older.find? (fun c => c.state == .filling) = none :=
    List.find?_eq_none.mpr (fun c hc => by simpa using holder c hc)
  have hfirst : b.first = firstPositionOf s b.number := (hw.1 b hmem).2.2.1
  rw [hscan, hnext]
  unfold fillingBlock
  rw [hblocks, List.find?_append, hnone, Option.none_or]
  by_cases hfull : b.fill + 1 = Config.blockSize
  · refine ⟨fun c hc => ?_, fun _ => ?_⟩
    · rw [List.find?_singleton, if_neg (by simp [hfull])] at hc
      cases hc
    · have hcounter : b.number + 1 = s.window.counter :=
        hw.2.2.2.2.2.2.2.2 hrun.2 b (by rw [hsplit, List.getLast?_concat]; rfl)
      change _ = s.pass.start + BitVec.ofNat 40 (Config.blockSize * s.window.counter)
      rw [hfirst, firstPositionOf, ← hcounter, add_assoc, add_assoc, ← BitVec.ofNat_add, ← BitVec.ofNat_add, hfull,
        Nat.mul_succ]
  · refine ⟨fun c hc => ?_, fun hn => ?_⟩
    · rw [List.find?_singleton, if_pos (by simp [hfull])] at hc
      cases hc
      rw [add_assoc, ← BitVec.ofNat_add]
    · rw [List.find?_singleton, if_pos (by simp [hfull])] at hn
      cases hn

theorem Feeds.placed {s t : State} (h : Feeds s t) (hrun : Running s) (hs : Placed s) : Placed t := by
  induction h with
  | refl => exact hs
  | @tail u v hst h ih =>
    have hrun' : Running u := by
      unfold Running
      rwa [(Feeds.pass_fifo hst).1]
    cases h with
    | update h => exact h.placed ih
    | scan x hnext => exact ih.congr rfl rfl rfl rfl hnext rfl
    | slot slot hnone hcount hfree => exact takeSlot_placed ih hrun' hnone hcount hfree
    | original => exact ih.congr rfl rfl rfl rfl rfl rfl
    | count hfill => exact advancePosition_placed ih hrun' hfill

/-! ## Release and the end of a pass -/

theorem Block.releasedIn_of_released {b : Block} (ks : List Nat) (h : b.state = .released) : b.releasedIn ks = b :=
  if_neg (fun hc => absurd (h.symm.trans hc.2) (by decide))

/-- The release rule goes from the oldest block on, so that what it releases keeps the order of the states (R46). -/
theorem pairwise_releasedIn {s : State} {bs : List Block} (hrise : bs.Pairwise (fun b c => b.number < c.number))
    (h : bs.Pairwise StatesOrdered) : (bs.map (Block.releasedIn (releasable s bs))).Pairwise StatesOrdered := by
  induction bs with
  | nil => exact .nil
  | cons b rest ih =>
    obtain ⟨hb, hrest⟩ := List.pairwise_cons.mp h
    obtain ⟨hlt, hrise'⟩ := List.pairwise_cons.mp hrise
    have hid : (b :: rest).map (Block.releasedIn []) = b :: rest :=
      (List.map_congr_left (fun c _ => if_neg (fun hc => nomatch hc.1))).trans (List.map_id _)
    have hreleased : b.state = .released → ((b :: rest).map (Block.releasedIn (releasable s rest))).Pairwise StatesOrdered := by
      intro hs
      have hself := Block.releasedIn_of_released (releasable s rest) hs
      rw [List.map_cons, List.pairwise_cons, hself]
      exact ⟨fun c _ => ⟨by rw [hs]; decide, fun _ => hs⟩, ih hrise' hrest⟩
    rw [releasable]
    split
    · next hs => exact hreleased hs
    · next hs =>
      split
      · have hmap : rest.map (Block.releasedIn (b.number :: releasable s rest)) =
            rest.map (Block.releasedIn (releasable s rest)) := by
          refine List.map_congr_left (fun c hc => ?_)
          simp only [Block.releasedIn, List.mem_cons, Nat.ne_of_gt (hlt c hc), false_or]
        have hself : (b.releasedIn (b.number :: releasable s rest)).state = .released := by
          rw [Block.releasedIn_state, if_pos ⟨List.mem_cons_self .., hs⟩]
        rw [List.map_cons, List.pairwise_cons, hmap]
        exact ⟨fun c _ => ⟨by rw [hself]; decide, fun _ => hself⟩, ih hrise' hrest⟩
      · rwa [hid]
    · rwa [hid]
    · rwa [hid]

theorem Block.releasedIn_fillLegal {b : Block} (ks : List Nat) (h : b.fillLegal) : (b.releasedIn ks).fillLegal := by
  unfold Block.releasedIn
  split
  · next hc =>
    unfold Block.fillLegal at h ⊢
    rw [hc.2] at h
    exact h
  · exact h

theorem Block.releasedIn_filling {b : Block} (ks : List Nat) : (b.releasedIn ks).state = .filling ↔ b.state = .filling := by
  rw [Block.releasedIn_state]
  split
  · next hc =>
    rw [hc.2]
    decide
  · rfl

/-- The state of the pass and the run-out mark moved on, with nothing else of the window: where the pass ends, its blocks are
RELEASED, and where it is IDLE, it holds none. -/
theorem Placed.passMoved {s t : State} (h : Placed s) (x : PassState) (hb : t.window.blocks = s.window.blocks)
    (hc : t.window.counter = s.window.counter) (hh : t.window.reviewHold = s.window.reviewHold)
    (hp : t.pass = { s.pass with state := x }) (hn : t.scan.next = s.scan.next) (ht : t.tracker = s.tracker)
    (hidle : x = .idle → s.window.blocks = []) (hended : x = .ended → ∀ b ∈ s.window.blocks, b.state = .released)
    (hopen : x = .running ∨ x = .closing → s.pass.state = .running ∨ s.pass.state = .closing) : Placed t := by
  have hb' : t.window.blocks = s.window.blocks.map id := by rw [hb, List.map_id]
  refine ⟨h.window.map id hb' hc hh (by rw [hp]) (by rw [hp]) (fun _ => ⟨rfl, rfl, rfl, fun _ => rfl⟩)
    (fun _ _ hf he => ⟨hf, he⟩) (by rw [List.map_id]; exact h.window.2.2.2.1) (fun hx => ?_) (fun hx => ?_) (fun hx => ?_),
    h.law.map id hb' hc hn (by rw [hp]) (fun _ => ⟨Iff.rfl, rfl, rfl⟩) (fun hx hr => ?_), ht ▸ h.held⟩
  · rw [hp] at hx
    exact .inr (hidle hx)
  · rw [hp] at hx
    exact hended hx
  · rwa [hp] at hx
  · rw [hp] at hx hr
    exact ⟨hopen hx, hr⟩

theorem releasedState_placed {s : State} (h : Placed s) : Placed (releasedState (releasable s s.window.blocks) s) := by
  obtain ⟨hw, hlaw, hheld⟩ := h
  have hframe := Block.releasedIn_frame (releasable s s.window.blocks)
  refine ⟨hw.map _ rfl rfl rfl rfl rfl (fun b => ?_) (fun b _ hfill hev => ?_) (pairwise_releasedIn hw.rising hw.2.2.2.1)
    .inl (fun he b hb => ?_) id, hlaw.map _ rfl rfl rfl rfl (fun b => ?_) (fun hx hr => ⟨hx, hr⟩), hheld⟩
  · obtain ⟨h1, h2, h3, -, -, h6⟩ := hframe b
    exact ⟨h1, h2, h3, fun l => by rw [h6]⟩
  · obtain ⟨-, -, -, -, h5, -⟩ := hframe b
    exact ⟨Block.releasedIn_fillLegal _ hfill, h5 ▸ hev⟩
  · have hs := hw.2.2.2.2.2.2.2.1 he b hb
    rw [Block.releasedIn_of_released _ hs, hs]
  · obtain ⟨-, -, h3, h4, -⟩ := hframe b
    exact ⟨Block.releasedIn_filling _, h3, h4⟩

theorem releaseRule_placed {s : State} (h : Placed s) : Placed (releaseRule s) := by
  obtain hr | ⟨ks, rfl, -, hr | ⟨-, -, hall, hr⟩⟩ := releaseRule_cases s
  · rwa [hr]
  · rw [hr]
    exact releasedState_placed h
  · rw [hr]
    exact (releasedState_placed h).passMoved .ended rfl rfl rfl rfl rfl rfl (fun hx => nomatch hx) (fun _ => hall)
      (fun hx => by simp at hx)

theorem endedToIdle_placed {s : State} (h : Placed s) : Placed (endedToIdle s) := by
  obtain ⟨hr, -⟩ | ⟨-, hnil, hr⟩ := endedToIdle_cases s
  · rwa [hr]
  · rw [hr]
    exact h.passMoved .idle rfl rfl rfl rfl rfl rfl (fun _ => hnil) (fun hx => nomatch hx) (fun hx => by simp at hx)

theorem reportReleased_placed {s : State} (h : Placed s) : Placed (reportReleased s) := by
  obtain hr | ⟨-, -, hall, hr⟩ := reportReleased_cases s
  · rwa [hr]
  · rw [hr]
    refine endedToIdle_placed (h.passMoved .ended rfl rfl rfl rfl rfl rfl (fun hx => nomatch hx) (fun _ b hb => ?_)
      (fun hx => by simp at hx))
    simpa using List.all_eq_true.mp hall b hb

/-- A run of oldest or newest blocks fewer is still a legal window, where it keeps the newest or the run-out has ended. -/
theorem WindowLegal.sub {s t : State} (h : WindowLegal s) (hsub : t.window.blocks.Sublist s.window.blocks)
    (hchain : t.window.blocks.IsChain (fun b c => c.number = b.number + 1)) (hc : t.window.counter = s.window.counter)
    (hh : t.window.reviewHold = s.window.reviewHold) (hstart : t.pass.start = s.pass.start)
    (hmask : t.pass.laneMask = s.pass.laneMask) (hstate : t.pass.state = s.pass.state)
    (hlast : t.pass.runOutEnded = false → ∀ b ∈ t.window.blocks.getLast?, b.number + 1 = s.window.counter) :
    WindowLegal t := by
  obtain ⟨h1, h2, -, h4, h5, h6, h7, h8, -⟩ := h
  refine ⟨fun b hb => ?_, h2.sublist (hsub.map _), hchain, h4.sublist hsub, hc ▸ h5, hh ▸ h6, fun hi => ?_, fun he b hb => ?_,
    fun hr b hb => hc ▸ hlast hr b hb⟩
  · have hlegal : b.Legal s := h1 b (hsub.subset hb)
    exact Block.legal_congr hlegal rfl rfl rfl (fun _ => rfl) hlegal.2.2.2.1 hlegal.2.2.2.2.1 (Nat.le_of_eq hc.symm) hstart hmask
  · have hnil := h7 (hstate ▸ hi)
    rw [hnil] at hsub
    exact List.sublist_nil.mp hsub
  · exact h8 (hstate ▸ he) b (hsub.subset hb)

theorem freeBlock_placed {s : State} {b : Block} (h : Placed s) (hb : drainHead s = some b) : Placed (freeBlock b s) := by
  obtain ⟨hw, hlaw, hheld⟩ := h
  obtain ⟨newer, hsplit⟩ := hw.head_oldest hb
  have hrise := hw.rising
  obtain ⟨-, -, hchain, -, -, -, -, -, hlast⟩ := id hw
  have hblocks : (freeBlock b s).window.blocks = newer := by
    change s.window.blocks.filter _ = _
    rw [hsplit] at hrise ⊢
    exact filter_number_ne hrise
  rw [hsplit] at hchain hlast
  refine ⟨hw.sub (by rw [hblocks, hsplit]; exact List.sublist_cons_self ..) (hblocks ▸ hchain.tail) rfl rfl rfl rfl rfl
    (fun hr c hc => ?_), fun hx hr => ?_, hheld⟩
  · rw [hblocks] at hc
    refine hlast hr c ?_
    rw [List.getLast?_cons, Option.mem_def, Option.mem_def.mp hc]
    rfl
  · obtain ⟨hsome, hnone⟩ := hlaw hx hr
    have hfilling : fillingBlock (freeBlock b s) = fillingBlock s := by
      unfold fillingBlock
      rw [hblocks, hsplit, List.find?_cons_of_neg (by simp [(mem_of_drainHead hb).2])]
    rw [hfilling]
    exact ⟨hsome, hnone⟩

/-- The end of the run-out makes the FILLING block FULL or frees it; no block is secured after it (R20, R39). -/
theorem ranOut_placed {s : State} (h : Placed s) (hdue : runOutDue s = true) : Placed (ranOut s) := by
  simp only [runOutDue, Bool.and_eq_true, beq_iff_eq, Bool.not_eq_true'] at hdue
  obtain ⟨⟨⟨hclosing, hro⟩, -⟩, -⟩ := hdue
  obtain ⟨hw, hlaw, hheld⟩ := Feeds.placed (Feeds.truncatePacket s) ⟨.inr hclosing, hro⟩ h
  have hpass := (Feeds.pass_fifo (Feeds.truncatePacket s)).1
  generalize hu : truncatePacket s = u at hw hlaw hheld hpass
  obtain ⟨-, hpass', -, -, -, -, hwin⟩ := endFilling_frame u
  have hpassT : (ranOut s).pass = { u.pass with runOutEnded := true } := by rw [ranOut, hu, ← hpass']
  have hwinT : (ranOut s).window = { (endFilling u).window with finalBlock := (ranOut s).window.finalBlock } := by
    rw [ranOut, hu]
  have hcount : (ranOut s).window.counter = u.window.counter := by rw [hwinT, hwin]
  have hhold : (ranOut s).window.reviewHold = u.window.reviewHold := by rw [hwinT, hwin]
  have hblocks : (ranOut s).window.blocks = (endFilling u).window.blocks := by rw [hwinT]
  have hstate : u.pass.state = .closing := by rw [hpass, hclosing]
  refine ⟨?_, fun _ hr => ?_, Nat.zero_le _⟩
  · obtain ⟨-, he⟩ | ⟨b, hb, -, he⟩ | ⟨b, hb, hfill, he⟩ := endFilling_cases u
    · rw [he] at hblocks
      exact hw.sub (by rw [hblocks]) (hblocks ▸ hw.2.2.1) hcount hhold (by rw [hpassT]) (by rw [hpassT]) (by rw [hpassT])
        (fun hr => by rw [hpassT] at hr; cases hr)
    · obtain ⟨older, hsplit, holder⟩ := hw.filling_newest hb
      have holder' : (ranOut s).window.blocks = older := by
        rw [hblocks, he, State.setBlocks_blocks, hsplit, List.filter_append,
          List.filter_cons_of_neg (by simp [(mem_of_fillingBlock hb).2]), List.filter_nil, List.append_nil]
        exact List.filter_eq_self.mpr (fun c hc => by simpa using holder c hc)
      have hchain := hw.2.2.1
      rw [hsplit] at hchain
      exact hw.sub (by rw [holder', hsplit]; exact List.sublist_append_left ..) (holder' ▸ hchain.left_of_append) hcount
        hhold (by rw [hpassT]) (by rw [hpassT]) (by rw [hpassT]) (fun hr => by rw [hpassT] at hr; cases hr)
    · obtain ⟨older, hsplit, holder⟩ := hw.filling_newest hb
      rw [he] at hblocks
      refine hw.map _ hblocks hcount hhold (by rw [hpassT]) (by rw [hpassT]) (fun c => ?_) (fun c hc hcfill hev => ?_)
        (pairwise_map_of_imp (fun c d hcd => ?_) hw.2.2.2.1) (fun hi => ?_) (fun hi => ?_) (fun hr => ?_)
      · split <;> exact ⟨rfl, rfl, rfl, fun _ => rfl⟩
      · split
        · next hcs =>
          rw [Block.fillLegal, if_pos hcs] at hcfill
          have hcb : c = b := by
            rw [hsplit] at hc
            obtain hc | hc := List.mem_append.mp hc
            · exact absurd hcs (holder c hc)
            · exact List.mem_singleton.mp hc
          refine ⟨?_, (List.length_filter_le ..).trans hev⟩
          rw [Block.fillLegal, if_neg (by simp)]
          exact ⟨Nat.pos_of_ne_zero (hcb ▸ hfill), Nat.le_of_lt hcfill⟩
        · next hcs =>
          rw [Block.fillLegal, if_neg hcs] at hcfill
          exact ⟨hcfill, hev⟩
      · obtain ⟨hc, hd⟩ := hcd
        rw [if_neg hc]
        refine ⟨hc, fun hr => hd ?_⟩
        split at hr
        · cases hr
        · exact hr
      · rw [hpassT] at hi
        exact absurd (hstate.symm.trans hi) (by decide)
      · rw [hpassT] at hi
        exact absurd (hstate.symm.trans hi) (by decide)
      · rw [hpassT] at hr
        cases hr
  · rw [hpassT] at hr
    cases hr

/-- The window in its legal form with the law of the next position, kept by every move. -/
theorem Move.placed {s t : State} (h : Move s t) (hi : InputLegal s) (hs : Placed s) : Placed t := by
  cases h with
  | update h => exact h.placed hs
  | feed hopen h =>
    obtain ⟨hidle, hended, hro⟩ := hi.open_pass hopen
    refine Feeds.placed h ⟨?_, by simpa using hro⟩ hs
    cases hstate : s.pass.state <;> simp_all
  | ready | arrived | cursor | rights | mark | decide | engine | mended | sounded => exact hs.congr rfl rfl rfl rfl rfl rfl
  | hold v hv =>
    obtain ⟨⟨h1, h2, h3, h4, h5, -, h7⟩, hlaw, hheld⟩ := hs
    exact ⟨⟨h1, h2, h3, h4, h5, hv, h7⟩, hlaw.congr rfl rfl rfl rfl, hheld⟩
  | opened a x hx =>
    obtain ⟨-, -, -, -, -, -, hstate, hro⟩ := openParameters_legal hx
    refine ⟨⟨by simp [setUpPass], .nil, .nil, .nil, Nat.zero_le _, hs.window.2.2.2.2.2.1, fun _ => rfl,
      fun _ => by simp [setUpPass], fun _ => by simp [setUpPass]⟩, fun _ _ => ⟨fun b hb => (nomatch hb), fun _ => ?_⟩,
      Nat.zero_le _⟩
    simp [setUpPass, firstPositionOf]
  | abandoned =>
    exact ⟨⟨by simp [abandonPass], .nil, .nil, .nil, hs.window.2.2.2.2.1, hs.window.2.2.2.2.2.1, fun _ => rfl,
      fun _ => by simp [abandonPass], fun _ => by simp [abandonPass]⟩, fun hx => by simp [abandonPass] at hx, Nat.zero_le _⟩
  | restored =>
    obtain ⟨⟨h1, h2, h3, h4, h5, -, h7⟩, hlaw, hheld⟩ := hs
    exact ⟨⟨h1, h2, h3, h4, h5, Nat.le_of_ble_eq_true rfl, h7⟩, hlaw.congr rfl rfl rfl rfl, hheld⟩
  | reset =>
    exact ⟨⟨fun b hb => (nomatch hb), .nil, .nil, .nil, Nat.zero_le _, Nat.le_of_ble_eq_true rfl, fun _ => rfl, fun _ b hb => (nomatch hb),
      fun _ b hb => (nomatch hb)⟩, fun hx => by simp [pinReset, State.reset, PassControl.reset] at hx, Nat.zero_le _⟩
  | closing hrun =>
    exact hs.passMoved .closing rfl rfl rfl rfl rfl rfl (fun hx => nomatch hx) (fun hx => nomatch hx) (fun _ => .inl hrun)
  | release => exact releaseRule_placed hs
  | report => exact reportReleased_placed hs
  | empty => exact endedToIdle_placed hs
  | runOut hdue => exact ranOut_placed hs hdue
  | free b hb => exact freeBlock_placed hs hb

/-- Settles O57: blocks are secured as the newest, freed as the oldest, and changed where they stand; the next position moves
with the fill count of the FILLING block. -/
theorem windowAndNextPositionStayLegal : Obligations.WindowAndNextPositionStayLegal := by
  intro c s t hi ht hw hn h
  obtain ⟨-, hplaced⟩ := keeps_of_moves (P := fun s => InputLegal s ∧ Placed s)
    (fun _ _ hm hu => ⟨hm.inputLegal hu.1, hm.placed hu.1 hu.2⟩) ⟨hi, hw, hn, ht.2.2.2.2.2.1⟩ h
  exact ⟨hplaced.window, hplaced.law⟩

end Sys2Proof.Machine
end

section
/-! The Defect Catalogue keeps its law under every command, and a listing takes the first free number (O58). -/

namespace Sys2Proof.Machine

/-! ## The number that the next entry receives (R56) -/

/-- The number i places after the counter, counting from 65535 on to 1. -/
def numberAfter (counter i : Nat) : Nat := (counter - 1 + i) % 65535 + 1

theorem nextNumber_numberAfter (c i : Nat) : nextNumber (numberAfter c i) = numberAfter c (i + 1) := by
  have h : Config.maxEntryNumber = 65535 := rfl
  unfold nextNumber numberAfter
  split <;> omega

theorem numberAfter_zero {c : Nat} (h : 1 ≤ c) (h' : c ≤ Config.maxEntryNumber) : numberAfter c 0 = c := by
  unfold numberAfter
  simp only [Config.maxEntryNumber] at h'
  omega

theorem numberAfter_range (c i : Nat) : 1 ≤ numberAfter c i ∧ numberAfter c i ≤ Config.maxEntryNumber := by
  unfold numberAfter
  simp only [Config.maxEntryNumber]
  omega

/-- The search passes over taken numbers alone, and stops at a free one or with its fuel spent. -/
theorem freeNumber_spec (taken : List Nat) (c fuel k : Nat) :
    ∃ i, i ≤ fuel ∧ freeNumber taken fuel (numberAfter c k) = numberAfter c (k + i) ∧
      (∀ j, j < i → numberAfter c (k + j) ∈ taken) ∧ (numberAfter c (k + i) ∉ taken ∨ i = fuel) := by
  induction fuel generalizing k with
  | zero => exact ⟨0, Nat.le_refl 0, rfl, fun j hj => absurd hj (Nat.not_lt_zero j), .inr rfl⟩
  | succ fuel ih =>
    rw [freeNumber]
    split
    · next hk =>
      obtain ⟨i, hi, heq, hheld, hfree⟩ := ih (k + 1)
      refine ⟨i + 1, Nat.succ_le_succ hi, ?_, fun j hj => ?_, ?_⟩
      · rw [nextNumber_numberAfter, heq, Nat.add_assoc, Nat.add_comm 1]
      · cases j with
        | zero => exact hk
        | succ j =>
          have := hheld j (Nat.lt_of_succ_lt_succ hj)
          rwa [Nat.add_assoc, Nat.add_comm 1] at this
      · rw [Nat.add_assoc, Nat.add_comm 1] at hfree
        exact hfree.imp id (congrArg Nat.succ)
    · next hk => exact ⟨0, Nat.zero_le _, rfl, fun j hj => absurd hj (Nat.not_lt_zero j), .inl hk⟩

/-- As many numbers in a row as there are entries and one more cannot all be taken. -/
theorem exists_free_number {taken : List Nat} {c : Nat} (hlen : taken.length < 65535) :
    ¬∀ j, j ≤ taken.length → numberAfter c j ∈ taken := by
  intro h
  have hnodup : ((List.range (taken.length + 1)).map (numberAfter c)).Nodup := by
    refine List.Nodup.map_on (fun i hi j hj hij => ?_) List.nodup_range
    rw [List.mem_range] at hi hj
    unfold numberAfter at hij
    omega
  have hsub : (List.range (taken.length + 1)).map (numberAfter c) ⊆ taken := by
    intro n hn
    obtain ⟨j, hj, rfl⟩ := List.mem_map.mp hn
    exact h j (Nat.le_of_lt_succ (List.mem_range.mp hj))
  have hle := (hnodup.subperm hsub).length_le
  rw [List.length_map, List.length_range] at hle
  omega

/-- The number assigned is the first from the counter on that no present entry holds. -/
theorem assignedNumber_spec {s : State} (h : CatalogueLegal s) :
    ∃ i, assignedNumber s = numberAfter s.catalogue.counter i ∧
      numberAfter s.catalogue.counter i ∉ s.catalogue.entries.map (fun e => e.number) ∧
      ∀ j, j < i → numberAfter s.catalogue.counter j ∈ s.catalogue.entries.map (fun e => e.number) := by
  obtain ⟨hlen, -, -, -, hlo, hhi, -⟩ := h
  obtain ⟨i, hi, heq, hheld, hfree⟩ := freeNumber_spec (s.catalogue.entries.map (fun e => e.number)) s.catalogue.counter
    s.catalogue.entries.length 0
  simp only [Nat.zero_add] at heq hheld hfree
  rw [numberAfter_zero hlo hhi] at heq
  refine ⟨i, heq, fun hmem => ?_, hheld⟩
  have hspent : i = s.catalogue.entries.length := hfree.resolve_left (fun hn => hn hmem)
  refine exists_free_number (taken := s.catalogue.entries.map (fun e => e.number)) (c := s.catalogue.counter) ?_
    (fun j hj => ?_)
  · rw [List.length_map]
    simp only [Config.catalogueDepth] at hlen
    omega
  · rw [List.length_map, ← hspent] at hj
    obtain hj | rfl := Nat.lt_or_eq_of_le hj
    · exact hheld j hj
    · exact hmem

/-! ## The catalogue order (R57) -/

theorem entryBefore_iff {s : State} {a b : Entry} :
    entryBefore s a b = true ↔
      passOffset s a.start < passOffset s b.start ∨
        passOffset s a.start = passOffset s b.start ∧
          (a.laneRank < b.laneRank ∨ a.laneRank = b.laneRank ∧ a.kindRank < b.kindRank) := by
  simp [entryBefore]

theorem entryBefore_congr {s t : State} {a b x y : Entry} (hs : t.pass.start = s.pass.start)
    (ha : x.start = a.start ∧ x.lane = a.lane ∧ x.kind = a.kind) (hb : y.start = b.start ∧ y.lane = b.lane ∧ y.kind = b.kind) :
    entryBefore t x y = entryBefore s a b := by
  obtain ⟨ha1, ha2, ha3⟩ := ha
  obtain ⟨hb1, hb2, hb3⟩ := hb
  unfold entryBefore passOffset Entry.kindRank Entry.laneRank
  rw [hs, ha1, ha2, ha3, hb1, hb2, hb3]

/-- An entry of no place before another's, put behind what comes no later than it. -/
theorem insertEntry_sorted {s : State} (e : Entry) {es : List Entry}
    (h : es.Pairwise (fun a b => entryBefore s b a = false)) :
    (insertEntry s e es).Pairwise (fun a b => entryBefore s b a = false) := by
  induction es with
  | nil => exact List.pairwise_singleton _ _
  | cons a rest ih =>
    obtain ⟨ha, hrest⟩ := List.pairwise_cons.mp h
    rw [insertEntry]
    split
    · next hbefore =>
      rw [entryBefore_iff] at hbefore
      refine List.pairwise_cons.mpr ⟨fun x hx => ?_, h⟩
      have hxa : ¬entryBefore s x a = true := by
        obtain rfl | hx := List.mem_cons.mp hx
        · rw [entryBefore_iff]
          omega
        · simpa using ha x hx
      rw [Bool.eq_false_iff, ne_eq, entryBefore_iff]
      rw [entryBefore_iff] at hxa
      omega
    · next hbefore =>
      refine List.pairwise_cons.mpr ⟨fun x hx => ?_, ih hrest⟩
      obtain rfl | hx := List.mem_cons.mp ((insertEntry_perm s e rest).mem_iff.mp hx)
      · simpa using hbefore
      · exact ha x hx

/-! ## The law of the catalogue, move by move (O58) -/

/-- The law rests on the catalogue and the pass start. -/
theorem CatalogueLegal.congr {s t : State} (h : CatalogueLegal s) (hc : t.catalogue = s.catalogue)
    (hp : t.pass.start = s.pass.start) : CatalogueLegal t := by
  unfold CatalogueLegal entryBefore passOffset at *
  rwa [hc, hp]

/-- The law with other entries of the same numbers and places. -/
theorem CatalogueLegal.map {s t : State} (h : CatalogueLegal s) (f : Entry → Entry)
    (hf : ∀ e, (f e).number = e.number ∧ (f e).start = e.start ∧ (f e).lane = e.lane ∧ (f e).kind = e.kind)
    (hc : t.catalogue = { s.catalogue with entries := s.catalogue.entries.map f }) (hp : t.pass.start = s.pass.start) :
    CatalogueLegal t := by
  obtain ⟨h1, h2, h3, h4, h5, h6, h7⟩ := h
  have hnumbers : (s.catalogue.entries.map f).map (fun e => e.number) = s.catalogue.entries.map (fun e => e.number) := by
    simp only [List.map_map, Function.comp_def, (hf _).1]
  unfold CatalogueLegal
  rw [hc]
  refine ⟨by rwa [List.length_map], fun e he => ?_, by rwa [hnumbers], ?_, h5, h6, fun p hp n hn => ?_⟩
  · obtain ⟨x, hx, rfl⟩ := List.mem_map.mp he
    rw [(hf x).1]
    exact h2 x hx
  · refine List.pairwise_map.mpr (h4.imp (fun {a b} hab => ?_))
    rw [entryBefore_congr hp (hf b).2 (hf a).2, hab]
  · rw [hnumbers]
    exact h7 p hp n hn

theorem CatalogueLegal.empty {s : State} (he : s.catalogue.entries = []) (hlo : 1 ≤ s.catalogue.counter)
    (hhi : s.catalogue.counter ≤ Config.maxEntryNumber) (hc : s.catalogue.cursors = PerPort.same Cursor.atEnd) :
    CatalogueLegal s := by
  unfold CatalogueLegal
  rw [he, hc]
  exact ⟨Nat.zero_le _, by simp, .nil, .nil, hlo, hhi, by simp [Cursor.atEnd]⟩

theorem CatalogueLegal.list {s : State} (h : CatalogueLegal s) (e : Entry)
    (hroom : s.catalogue.entries.length < Config.catalogueDepth) : CatalogueLegal (listEntry e s) := by
  obtain ⟨i, hassigned, hfree, -⟩ := assignedNumber_spec h
  obtain ⟨h1, h2, h3, h4, h5, h6, h7⟩ := h
  have hperm := listEntry_perm e s
  obtain ⟨-, hpass, -⟩ := listEntry_frame e s
  have hrange := numberAfter_range s.catalogue.counter i
  rw [← hassigned] at hrange hfree
  have hsorted : (listEntry e s).catalogue.entries.Pairwise (fun a b => entryBefore s b a = false) := by
    have hes : (listEntry e s).catalogue.entries = insertEntry s { e with number := assignedNumber s } s.catalogue.entries := by
      unfold listEntry
      dsimp only
      split <;> rfl
    rw [hes]
    exact insertEntry_sorted _ h4
  have hnumbers := hperm.map (fun x => x.number)
  refine ⟨?_, fun x hx => ?_, ?_, ?_, ?_, ?_, fun p hp n hn => ?_⟩
  · rw [hperm.length_eq, List.length_cons]
    exact hroom
  · obtain rfl | hx := List.mem_cons.mp (hperm.mem_iff.mp hx)
    · exact hrange
    · exact h2 x hx
  · rw [hnumbers.nodup_iff, List.map_cons, List.nodup_cons]
    exact ⟨hfree, h3⟩
  · exact hsorted.imp (fun hab =>
      (entryBefore_congr (by rw [hpass]) ⟨rfl, rfl, rfl⟩ ⟨rfl, rfl, rfl⟩).trans hab)
  · rw [listEntry_counter]
    exact (nextNumber_range hrange.2).1
  · rw [listEntry_counter]
    exact (nextNumber_range hrange.2).2
  · rw [listEntry_cursors] at hn
    exact hnumbers.mem_iff.mpr (List.mem_cons_of_mem _ (h7 p hp n hn))

/-- A cursor after a removal stands on an entry that stays, or at END (R69). -/
theorem Cursor.afterRemoval_present {es : List Entry} {gone : Entry → Bool} {c : Cursor}
    (h : ∀ n ∈ c.target, n ∈ es.map (fun e => e.number)) :
    ∀ n ∈ (c.afterRemoval es gone).target, n ∈ (es.filter (fun e => !gone e)).map (fun e => e.number) := by
  intro n hn
  unfold Cursor.afterRemoval at hn
  have hstay : ∀ e ∈ es, gone e = false → e.number = n → n ∈ (es.filter (fun e => !gone e)).map (fun e => e.number) :=
    fun e he hg hnum => List.mem_map.mpr ⟨e, List.mem_filter.mpr ⟨he, by simp [hg]⟩, hnum⟩
  cases ht : c.target with
  | none =>
    simp [ht] at hn
  | some m =>
    simp only [ht] at hn
    have hsub := List.dropWhile_sublist (fun e : Entry => e.number != m) (l := es)
    split at hn
    · next hnil =>
      obtain ⟨e, he, hem⟩ := List.mem_map.mp (h m ht)
      rw [List.dropWhile_eq_nil_iff] at hnil
      exact absurd (hnil e he) (by simpa using hem)
    · next e rest hcons =>
      have hem : e.number = m := by
        have := List.head_dropWhile_not (fun e : Entry => e.number != m) (l := es) (by rw [hcons]; simp)
        simpa [hcons] using this
      rw [hcons] at hsub
      split at hn
      · obtain ⟨x, hx, hxn⟩ := Option.map_eq_some_iff.mp hn
        have hxg := List.find?_some hx
        exact hstay x (hsub.subset (List.mem_cons_of_mem _ (List.mem_of_find?_eq_some hx))) (by simpa using hxg) hxn
      · next hg =>
        rw [ht] at hn
        cases hn
        exact hstay e (hsub.subset (List.mem_cons_self ..)) (by simpa using hg) hem

theorem CatalogueLegal.remove {s t : State} (h : CatalogueLegal s) (k : Nat)
    (hc : t.catalogue = (removeEntriesOf k s).catalogue) (hp : t.pass.start = s.pass.start) : CatalogueLegal t := by
  refine CatalogueLegal.congr (s := removeEntriesOf k s) ?_ hc hp
  obtain ⟨h1, h2, h3, h4, h5, h6, h7⟩ := h
  have hsub : (removeEntriesOf k s).catalogue.entries.Sublist s.catalogue.entries := List.filter_sublist ..
  refine ⟨hsub.length_le.trans h1, fun e he => h2 e (hsub.subset he), h3.sublist (hsub.map _), h4.sublist hsub, h5, h6,
    fun p hp => ?_⟩
  have hcursor : (removeEntriesOf k s).catalogue.cursors.get p =
      (s.catalogue.cursors.get p).afterRemoval s.catalogue.entries (startsIn s k) := PerPort.get_map ..
  rw [hcursor]
  exact Cursor.afterRemoval_present (h7 p hp)

theorem Update.catalogueLegal {s t : State} (h : Update s t) (hs : CatalogueLegal s) : CatalogueLegal t := by
  cases h with
  | ports | blocks | track => exact hs.congr rfl rfl
  | list e hroom => exact hs.list e hroom

theorem Feeds.catalogueLegal {s t : State} (h : Feeds s t) (hs : CatalogueLegal s) : CatalogueLegal t := by
  induction h with
  | refl => exact hs
  | tail _ h ih =>
    cases h with
    | update h => exact h.catalogueLegal ih
    | scan | slot | original | count => exact ih.congr rfl rfl

theorem endedToIdle_start (s : State) : (endedToIdle s).pass.start = s.pass.start := by
  unfold endedToIdle
  split <;> rfl

theorem reportReleased_start (s : State) : (reportReleased s).pass.start = s.pass.start := by
  obtain h | ⟨-, -, -, h⟩ := reportReleased_cases s
  · rw [h]
  · rw [h, endedToIdle_start]

theorem CatalogueLegal.report {s : State} (h : CatalogueLegal s) : CatalogueLegal (reportReleased s) := by
  obtain ⟨-, -, -, -, -, hc, -⟩ := reportReleased_frame s
  exact h.congr hc (reportReleased_start s)

theorem Move.catalogueLegal {s t : State} (h : Move s t) (hs : CatalogueLegal s) : CatalogueLegal t := by
  cases h with
  | update h => exact h.catalogueLegal hs
  | feed _ h => exact Feeds.catalogueLegal h hs
  | ready | arrived | rights | restored | hold | mark | closing | engine | mended | sounded => exact hs.congr rfl rfl
  | cursor p c hc =>
    obtain ⟨h1, h2, h3, h4, h5, h6, h7⟩ := hs
    refine ⟨h1, h2, h3, h4, h5, h6, fun q hq => ?_⟩
    simp only [State.setCursor_cursors, PerPort.get_set]
    split
    · exact hc
    · exact h7 q hq
  | opened => exact .empty rfl (by simp [setUpPass, Catalogue.reset]) (by simp [setUpPass, Catalogue.reset, Config.maxEntryNumber]) rfl
  | abandoned => exact .empty rfl hs.2.2.2.2.1 hs.2.2.2.2.2.1 rfl
  | reset => exact .empty rfl (Nat.le_refl 1) (Nat.le_of_ble_eq_true rfl) rfl
  | release =>
    rw [releaseRule_eq]
    split
    · exact hs
    · exact (hs.map (t := releasedState _ s) (Entry.fixedIn s _) (fun _ => ⟨rfl, rfl, rfl, rfl⟩) rfl rfl).report
  | report => exact hs.report
  | empty =>
    obtain ⟨h, -⟩ | ⟨-, -, h⟩ := endedToIdle_cases s <;> rw [h]
    · exact hs
    · exact hs.congr rfl rfl
  | runOut =>
    have hu := Feeds.catalogueLegal (Feeds.truncatePacket s) hs
    obtain ⟨-, he⟩ | ⟨b, -, -, he⟩ | ⟨b, -, -, he⟩ := endFilling_cases (truncatePacket s)
    · exact hu.congr (by rw [ranOut, he]) (by rw [ranOut, he])
    · exact hu.remove b.number (by rw [ranOut, he]; rfl) (by rw [ranOut, he]; rfl)
    · exact hu.congr (by rw [ranOut, he]; rfl) (by rw [ranOut, he]; rfl)
  | decide f hf => exact hs.map f hf rfl rfl
  | free b hb => exact hs.remove b.number rfl rfl

/-- Settles O58: entries are listed in their place under a free number and removed with the cursors on them, and nothing else
changes a number or a place. -/
theorem catalogueStaysLegal : Obligations.CatalogueStaysLegal := by
  refine ⟨fun c s t hs h => keeps_of_moves (P := CatalogueLegal) (fun _ _ => Move.catalogueLegal) hs h, fun s hs => ?_⟩
  obtain ⟨i, hassigned, hfree, hheld⟩ := assignedNumber_spec hs
  have hrange := numberAfter_range s.catalogue.counter i
  rw [← hassigned] at hrange
  dsimp only
  refine ⟨⟨i, hassigned, ?_, fun j hj => ?_⟩, ?_⟩
  · exact fun ⟨e, he, hn⟩ => hfree (List.mem_map.mpr ⟨e, he, hn⟩)
  · exact List.mem_map.mp (hheld j hj)
  · have h : Config.maxEntryNumber = 65535 := rfl
    unfold nextNumber
    split <;> split <;> omega

end Sys2Proof.Machine
end

section
/-! No void value enters the mended and restored arrays or the anchors of a work in flight, as long as the window memory is in
canonical form; without that premise, which O59 leaves out, it can (a memory that lists one cell twice shows the second value
once the first is overwritten by the unwritten value). -/

namespace Sys2Proof.Machine

/-- A cell written where it may hold no void value, or in an original array. -/
theorem SamplesSound.writeCell {m : WindowMemory} (hm : Memory.wf m) {slot : Nat} {a : SampleArray} {l : Lane} {o : Nat}
    {v : Sample} (hs : ∀ x, (x / Config.blockSize) % 3 ≠ 0 → readCell m x ≠ Config.voidValue) (ho : o < Config.blockSize)
    (hv : a = .original ∨ v ≠ Config.voidValue) (x : Nat) (hx : (x / Config.blockSize) % 3 ≠ 0) :
    readCell (Machine.writeCell m (sampleAddress slot a l o) v) x ≠ Config.voidValue := by
  by_cases hxa : x = sampleAddress slot a l o
  · subst hxa
    rw [sampleAddress_array _ _ _ ho] at hx
    obtain rfl | hv := hv
    · exact absurd rfl hx
    · rwa [readCell_writeCell_self hm]
  · rw [readCell_writeCell_other v hxa]
    exact hs x hx

theorem SamplesSound.congr {s t : State} (h : SamplesSound s) (ht : t.window.memory = s.window.memory) : SamplesSound t := by
  unfold SamplesSound
  rwa [ht]

theorem AnchorsSound.congr {s t : State} (h : AnchorsSound s) (ht : t.engines = s.engines) : AnchorsSound t := by
  unfold AnchorsSound
  rwa [ht]

theorem anchorsSound_of_idle {s : State} (h : ∀ l, (s.engines.get l).work = .none) : AnchorsSound s := by
  intro l _ a ha
  rw [h l] at ha
  cases ha

theorem AnchorsSound.mapEngine {s t : State} {l : Lane} {f : LaneEngine → LaneEngine} (h : AnchorsSound s)
    (ht : t.engines = s.engines.set l (f (s.engines.get l))) (hf : ∀ a ∈ (f (s.engines.get l)).work.anchors, a.Sound) :
    AnchorsSound t := by
  intro m hm
  rw [ht, PerLane.get_set]
  split
  · exact hf
  · exact h m hm

/-- What the arrays' freedom of void values rests on: the memory in canonical form, the window legal with the law of the next
position, and the anchors read free of void values. -/
structure Sound (s : State) : Prop where
  input   : InputLegal s
  placed  : Placed s
  memory  : Memory.wf s.window.memory
  anchors : AnchorsSound s
  samples : SamplesSound s

theorem Update.samplesSound {s t : State} (h : Update s t) (hs : SamplesSound s) : SamplesSound t := hs.congr h.memory

theorem Feeds.samplesSound {s t : State} (h : Feeds s t) (hrun : Running s) (hp : Placed s) (hm : Memory.wf s.window.memory)
    (hs : SamplesSound s) : SamplesSound t := by
  induction h with
  | refl => exact hs
  | @tail u v hst h ih =>
    have hp' := Feeds.placed hst hrun hp
    have hm' := Feeds.memory_wf hst hm
    have hrun' : Running u := by
      unfold Running
      rwa [(Feeds.pass_fifo hst).1]
    cases h with
    | update h => exact h.samplesSound ih
    | scan | slot | count => exact ih.congr rfl
    | original b l x hfill =>
      have hnext := (hp'.law hrun'.1 hrun'.2).1 b hfill
      obtain ⟨hmem, hstate⟩ := mem_of_fillingBlock hfill
      have hlt : b.fill < Config.blockSize := by
        have hlegal : b.fillLegal := (hp'.window.1 b hmem).2.2.2.1
        rwa [Block.fillLegal, if_pos hstate] at hlegal
      have ho : offsetIn b u.scan.next < Config.blockSize := by
        rw [offsetIn, hnext, add_sub_cancel_left, BitVec.toNat_ofNat]
        exact (Nat.mod_le _ _).trans_lt hlt
      exact SamplesSound.writeCell hm' ih ho (.inl rfl)

theorem Move.samplesSound {s t : State} (h : Move s t) (hs : Sound s) : SamplesSound t := by
  obtain ⟨hi, hp, hm, ha, hv⟩ := hs
  cases h with
  | update h => exact h.samplesSound hv
  | feed hopen h =>
    obtain ⟨hidle, hended, hro⟩ := hi.open_pass hopen
    refine Feeds.samplesSound h ⟨?_, by simpa using hro⟩ hp hm hv
    cases hstate : s.pass.state <;> simp_all
  | ready | arrived | cursor | rights | opened | abandoned | restored | reset | hold | mark | closing | decide | free |
    engine => exact hv.congr rfl
  | release =>
    obtain ⟨-, -, -, -, -, hw, -⟩ := releaseRule_frame s
    exact hv.congr (by rw [hw])
  | report =>
    obtain ⟨-, -, -, -, -, -, hw⟩ := reportReleased_frame s
    exact hv.congr hw
  | empty =>
    obtain ⟨h, -⟩ | ⟨-, -, h⟩ := endedToIdle_cases s
    · exact hv.congr (by rw [h])
    · exact hv.congr (by rw [h]; rfl)
  | runOut hdue =>
    simp only [runOutDue, Bool.and_eq_true, beq_iff_eq, Bool.not_eq_true'] at hdue
    obtain ⟨⟨⟨hclosing, hro⟩, -⟩, -⟩ := hdue
    obtain ⟨-, -, -, -, -, -, hw⟩ := endFilling_frame (truncatePacket s)
    refine (Feeds.samplesSound (Feeds.truncatePacket s) ⟨.inr hclosing, hro⟩ hp hm hv).congr ?_
    change (endFilling (truncatePacket s)).window.memory = _
    rw [hw]
  | mended l b o v f hb ho hval =>
    have hfill : b.fill ≤ Config.blockSize := Block.fillLegal.le (hp.window.1 b hb).2.2.2.1
    exact SamplesSound.writeCell hm hv (ho.trans_le hfill) (.inr (hval hp.window ha hv))
  | sounded l b o v hb ho hval =>
    have hfill : b.fill ≤ Config.blockSize := Block.fillLegal.le (hp.window.1 b hb).2.2.2.1
    exact SamplesSound.writeCell hm hv (ho.trans_le hfill) (.inr hval)

theorem Move.anchorsSound {s t : State} (h : Move s t) (hs : Sound s) : AnchorsSound t := by
  obtain ⟨-, hp, -, ha, hv⟩ := hs
  cases h with
  | update h => exact ha.congr h.engines
  | feed _ h => exact ha.congr (Feeds.engines h)
  | ready | arrived | cursor | rights | hold | mark | closing | decide | free | sounded => exact ha.congr rfl
  | opened => exact anchorsSound_of_idle (fun l => by simp [setUpPass, LaneEngine.openPass])
  | abandoned => exact anchorsSound_of_idle (fun l => by simp [abandonPass, LaneEngine.abandon])
  | reset => exact anchorsSound_of_idle (fun l => by simp [pinReset, State.reset, LaneEngine.reset])
  | restored =>
    intro l hl
    rw [restoreDefaults, PerLane.get_mapIdx]
    exact ha l hl
  | release =>
    obtain ⟨-, -, -, he, -⟩ := releaseRule_frame s
    exact ha.congr he
  | report =>
    obtain ⟨-, -, -, he, -⟩ := reportReleased_frame s
    exact ha.congr he
  | empty =>
    obtain ⟨h, -⟩ | ⟨-, -, h⟩ := endedToIdle_cases s
    · exact ha.congr (by rw [h])
    · exact ha.congr (by rw [h]; rfl)
  | runOut =>
    obtain ⟨-, -, -, -, he, -⟩ := endFilling_frame (truncatePacket s)
    exact ha.congr (he.trans (Feeds.engines (Feeds.truncatePacket s)))
  | engine l f h => exact ha.mapEngine rfl (h.anchors hp.window ha hv)
  | mended l b o v f hb ho hval h => exact ha.mapEngine rfl (h.anchors hp.window ha hv)

theorem Move.sound {s t : State} (h : Move s t) (hs : Sound s) : Sound t :=
  ⟨h.inputLegal hs.input, h.placed hs.input hs.placed, h.memory_wf hs.memory, h.anchorsSound hs, h.samplesSound hs⟩

/-- The statement of O59 with the premise that it leaves out, the window memory in canonical form (which O53 keeps and the
reset state meets): every command keeps the void value out of the mended and restored arrays and of the anchors. -/
theorem exec_sound {c : Instr} {s t : State} (hs : Sound s) (h : exec c s = .next t) : Sound t :=
  keeps_of_moves (P := Sound) (fun _ _ => Move.sound) hs h

/-! ## A memory that lists a cell twice (O59) -/

/-- Block 0 in slot 0, FULL with one position, its one record WORKING. -/
def twiceBlock : Block :=
  { slot := 0, number := 0, first := 0#40, fill := 1, state := .full, filmGap := false, filmSlip := false, filmLink := false
    start := ⟨.unlocked, none⟩, events := []
    lanes := ⟨some { LaneRecord.fresh with render := .working }, none, none, none⟩ }

/-- A live render of block 0 on lane 0 at the start of its mend stage, in a part whose memory lists the first cell of the
mended array twice: it reads 1, and behind that stands the void value. -/
def twiceListed : State :=
  { State.reset with
    pass := { PassControl.reset with state := .running, laneMask := 1#4 }
    scan := { ScanInput.reset with next := 2048#40 }
    window := { Window.reset with blocks := [twiceBlock], memory := [(2048, 1#24), (2048, 0x800000#24)], counter := 1 }
    engines := (PerLane.same LaneEngine.reset).set .lane0
      { LaneEngine.reset with work := .live 0 (Flight.begin LaneSettings.defaults (.mend 0)) } }

theorem samplesSound_twiceListed : SamplesSound twiceListed := by
  intro a _
  change readCell [(2048, 1#24), (2048, 0x800000#24)] a ≠ Config.voidValue
  rw [readCell, readCell, readCell]
  split
  · decide
  · decide

/-- Refutes O59: its premises do not ask for the canonical form of the window memory. The mend stage writes the original value
0 into the first cell of the mended array; 0 is the unwritten value, so that the first of the two listings goes and the cell
reads as the second, the void value. -/
theorem not_mendedAndRestoredStaySound : ¬ Obligations.MendedAndRestoredStaySound := by
  intro h
  have hex : ∃ t, exec (.liveRenderComplete .lane0 (.part 1)) twiceListed = .next t ∧
      readCell t.window.memory 2048 = Config.voidValue := ⟨_, rfl, by decide⟩
  obtain ⟨t, ht, hvoid⟩ := hex
  have hsound := h _ twiceListed t (by decide) (by decide) (by decide) (by decide) (by decide) samplesSound_twiceListed ht
  exact hsound.2 2048 (by decide) hvoid

end Sys2Proof.Machine
end

section
/-! The step and the completion of every command, the check of a request, and the state after reset (O1, O2, O4, O9, O10,
O60). -/

namespace Sys2Proof.Machine

/-! ## Steps and completions (O1, O2) -/

/-- Settles O1: both equations are the definition of a step. -/
theorem stepRunsFrontCommandOrIdles : Obligations.StepRunsFrontCommandOrIdles := by
  refine ⟨fun c rest s => rfl, fun s h => ?_⟩
  rw [step, h]

theorem Update.pending {s t : State} (h : Update s t) : t.pending = s.pending := by
  cases h with
  | ports | blocks | track => rfl
  | list e =>
    obtain ⟨hp, -⟩ := listEntry_frame e s
    exact hp

theorem Feeds.pending {s t : State} (h : Feeds s t) : t.pending = s.pending := by
  induction h with
  | refl => rfl
  | tail _ h ih =>
    rw [← ih]
    cases h with
    | update h => exact h.pending
    | scan | slot | original | count => rfl

/-- No move touches the queue. -/
theorem Move.pending {s t : State} (h : Move s t) : t.pending = s.pending := by
  cases h with
  | update h => exact h.pending
  | feed _ h => exact Feeds.pending h
  | ready | arrived | cursor | rights | opened | abandoned | restored | reset | hold | mark | closing | decide | free |
    engine | mended | sounded => rfl
  | release =>
    obtain ⟨h, -⟩ := releaseRule_frame s
    exact h
  | report =>
    obtain ⟨h, -⟩ := reportReleased_frame s
    exact h
  | empty =>
    obtain ⟨h, -⟩ | ⟨-, -, h⟩ := endedToIdle_cases s
    · rw [h]
    · rw [h]
      rfl
  | runOut =>
    obtain ⟨h, -⟩ := endFilling_frame (truncatePacket s)
    exact h.trans (Feeds.pending (Feeds.truncatePacket s))

/-- Every command completes, and settles the outputs as it does. -/
theorem exec_completed (c : Instr) (s : State) : ∃ u, exec c s = completed u := by
  cases c <;> exact ⟨_, rfl⟩

theorem readyOf_iff {s : State} :
    readyOf s = true ↔ s.pass.state = .running ∧ s.scan.fifo.length ≤ Config.readyLevel := by
  simp [readyOf]

theorem attentionOf_iff {q : PortState} : attentionOf q = true ↔ q.events &&& q.mask ≠ 0#11 := by
  simp [attentionOf]

theorem outputsJudged_settle (u : State) : OutputsJudged (settle u) := by
  refine ⟨readyOf_iff, fun p _ => ?_⟩
  rw [settle_port]
  exact attentionOf_iff

/-- Settles O2: every arm of `exec` settles a state that its command leads to, and no move touches the queue. -/
theorem everyCommandCompletesAndJudgesOutputs : Obligations.EveryCommandCompletesAndJudgesOutputs := by
  intro c s
  obtain ⟨u, hu⟩ := exec_completed c s
  refine ⟨settle u, hu, ?_, outputsJudged_settle u⟩
  exact keeps_of_moves (P := fun t => t.pending = s.pending) (fun _ _ hm hp => hm.pending.trans hp) rfl hu

/-! ## The check of a request (O4) -/

theorem acceptance_eq (s : State) (p : Port) (r : Request) (x : Byte) :
    acceptance s p r x =
      if (requiredResource r x).any (fun res => s.rights.owner res != p) = true then .denied
      else if acceptedIn r s.pass.state = false then .state else .done := by
  unfold acceptance hasRight
  cases requiredResource r x with
  | none => simp
  | some res => simp [bne]

/-- Settles O4: the right and the pass states of each request are read off the two tables. -/
theorem acceptanceChecksRightsThenPassState : Obligations.AcceptanceChecksRightsThenPassState := by
  intro s p x
  simp only [acceptance_eq, List.forall_mem_cons, List.not_mem_nil, false_implies, implies_true, and_true]
  cases h : Lane.ofNat? x.toNat <;> simp [requiredResource, acceptedIn, Rights.owner, h]

/-! ## The state after reset (O9, O10, O60) -/

/-- Settles O9. -/
theorem pinResetGivesResetValues : Obligations.PinResetGivesResetValues := by
  refine ⟨fun c s => rfl, fun r p => ?_, rfl, rfl, rfl, rfl⟩
  cases r with
  | lane l => exact PerLane.get_same p l
  | pass | review | drain | chief => rfl

/-- Settles O10: each value is read off `State.reset`. -/
theorem resetStateHoldsManualValues : Obligations.ResetStateHoldsManualValues := by
  refine ⟨rfl, rfl, rfl, rfl, rfl, rfl, rfl, rfl, rfl, rfl, rfl, rfl, rfl, rfl, rfl, rfl, rfl, rfl, rfl, rfl, rfl, rfl, rfl,
    rfl, rfl, rfl, rfl, rfl, rfl, rfl, rfl, rfl, rfl, rfl, rfl, fun p => ?_, fun l => ?_, fun p => ?_⟩
  · exact PerPort.get_same _ p
  · exact PerLane.get_same _ l
  · rw [show State.reset.ports.get p = PortState.reset from PerPort.get_same _ p]
    exact ⟨rfl, rfl, rfl, rfl, rfl⟩

theorem samplesSound_reset : SamplesSound State.reset := fun _ _ => by
  change Config.unwrittenSample ≠ Config.voidValue
  decide

/-- Settles O60: every invariant of the reset state is a finite check, but for the cells, which all read as 0. -/
theorem resetStateIsLegal : Obligations.ResetStateIsLegal :=
  ⟨by decide, by decide, by decide, by decide, by decide, by decide, by decide, by decide, by decide, samplesSound_reset,
    Memory.wf_reset⟩

end Sys2Proof.Machine
end

section
/-! A change of the frame in progress on one port passes through whatever the part does besides: nothing that a request or
Scan Input does reads the frame of a port. So the rise of select acts as things then stand (R168, R172). -/

namespace Sys2Proof.Machine

/-- A change of a port that leaves out what an event, a request or a reset writes: it goes with every write of event set,
event mask and last result, and with every change of the drain read. -/
structure FrameChange (f : PortState → PortState) : Prop where
  events : ∀ q e, f { q with events := e } = { f q with events := e }
  mask   : ∀ q m, f { q with mask := m } = { f q with mask := m }
  last   : ∀ q r, f { q with lastResult := r } = { f q with lastResult := r }
  drain  : ∀ q g, f { q with drain := q.drain.map g } = { f q with drain := (f q).drain.map g }

theorem FrameChange.events_eq {f : PortState → PortState} (hf : FrameChange f) (q : PortState) :
    (f q).events = q.events := by
  have h := congrArg (fun x => x.events) (hf.events q q.events)
  exact h

theorem FrameChange.startFrame (x : FrameState) (bytes : List Byte) (odd : Option Nibble) :
    FrameChange (fun q => q.startFrame x bytes odd) :=
  ⟨fun _ _ => rfl, fun _ _ => rfl, fun _ _ => rfl, fun _ _ => rfl⟩

theorem FrameChange.replied (bytes : List Byte) (n : Nat) (status : Byte) (driven : List Nibble) :
    FrameChange (fun q => q.replied bytes n status driven) :=
  ⟨fun _ _ => rfl, fun _ _ => rfl, fun _ _ => rfl, fun _ _ => rfl⟩

theorem FrameChange.setDriven (d : List Nibble) : FrameChange (fun q => { q with driven := d }) :=
  ⟨fun _ _ => rfl, fun _ _ => rfl, fun _ _ => rfl, fun _ _ => rfl⟩

/-! ## Where a frame change passes through -/

/-- A change of every port alike, which a change of one port goes with. -/
theorem map_mapPort {s : State} {p : Port} {f g : PortState → PortState} (h : ∀ q, g (f q) = f (g q)) :
    (s.mapPort p f).ports.map g = (s.ports.map g).set p (f ((s.ports.map g).get p)) := by
  rw [State.mapPort_ports, PerPort.map_set, PerPort.get_map, h]

theorem ite_mapPort {c : Prop} [Decidable c] {a b a' b' : State} {p : Port} {f : PortState → PortState}
    (ha : c → a' = a.mapPort p f) (hb : ¬c → b' = b.mapPort p f) :
    (if c then a' else b') = (if c then a else b).mapPort p f := by
  split
  · next h => exact ha h
  · next h => exact hb h

section
variable {p : Port} {f : PortState → PortState} (hf : FrameChange f)
include hf

theorem raise_mapPort (e : Event) {s t : State} (ht : t = s.mapPort p f) : raise e t = (raise e s).mapPort p f := by
  have h : ∀ q : PortState, { f q with events := (f q).events ||| e.flag } = f { q with events := q.events ||| e.flag } :=
    fun q => hf.events_eq q ▸ (hf.events q _).symm
  rw [ht]
  exact congrArg (fun x => ({ s with ports := x } : State))
    (map_mapPort (s := s) (p := p) (g := fun q => { q with events := q.events ||| e.flag }) h)

theorem linkFault_mapPort {s t : State} (ht : t = s.mapPort p f) : linkFault t = (linkFault s).mapPort p f := by
  rw [ht]
  exact raise_mapPort hf .link rfl

theorem releasedState_mapPort (ks : List Nat) (s : State) :
    releasedState ks (s.mapPort p f) = (releasedState ks s).mapPort p f := raise_mapPort hf .released rfl

theorem endedToIdle_mapPort {s t : State} (ht : t = s.mapPort p f) : endedToIdle t = (endedToIdle s).mapPort p f := by
  rw [ht, endedToIdle, endedToIdle]
  exact ite_mapPort (fun _ => raise_mapPort hf .passend rfl) (fun _ => rfl)

theorem reportReleased_mapPort {s t : State} (ht : t = s.mapPort p f) :
    reportReleased t = (reportReleased s).mapPort p f := by
  rw [ht, reportReleased, reportReleased]
  exact ite_mapPort (fun _ => endedToIdle_mapPort hf rfl) (fun _ => rfl)

omit hf in
theorem releasable_mapPort (s : State) (bs : List Block) : releasable (s.mapPort p f) bs = releasable s bs := by
  have hw : ∀ k, holdWaived (s.mapPort p f) k = holdWaived s k := fun _ => rfl
  induction bs with
  | nil => rfl
  | cons b rest ih => rw [releasable, releasable, ih, hw]

theorem releaseRule_mapPort {s t : State} (ht : t = s.mapPort p f) : releaseRule t = (releaseRule s).mapPort p f := by
  rw [ht, releaseRule_eq, releaseRule_eq, State.mapPort_window, releasable_mapPort, releasedState_mapPort hf]
  exact ite_mapPort (fun _ => rfl) (fun _ => reportReleased_mapPort hf rfl)

omit hf in
theorem insertEntry_mapPort (s : State) (e : Entry) (es : List Entry) :
    insertEntry (s.mapPort p f) e es = insertEntry s e es := by
  have hb : ∀ a b, entryBefore (s.mapPort p f) a b = entryBefore s a b := fun _ _ => rfl
  induction es with
  | nil => rfl
  | cons a rest ih => rw [insertEntry, insertEntry, ih, hb]

theorem listEntry_mapPort (e : Entry) (s : State) : listEntry e (s.mapPort p f) = (listEntry e s).mapPort p f := by
  have hn : assignedNumber (s.mapPort p f) = assignedNumber s := rfl
  unfold listEntry
  dsimp only
  rw [hn, insertEntry_mapPort]
  exact ite_mapPort (fun _ => raise_mapPort hf .cathigh rfl) (fun _ => rfl)

omit hf in
theorem staleRequest_mapPort (l : Lane) (k : Nat) (s : State) :
    staleRequest l k (s.mapPort p f) = (staleRequest l k s).mapPort p f := by
  have hb : ∀ j, blockNumbered (s.mapPort p f) j = blockNumbered s j := fun _ => rfl
  unfold staleRequest
  rw [hb]
  cases (blockNumbered s k).bind (fun b => b.renderOf l) with
  | none => rfl
  | some x => cases x <;> rfl

omit hf in
theorem staleRequests_mapPort (ls : List Lane) (k : Nat) (s : State) :
    staleRequests ls k (s.mapPort p f) = (staleRequests ls k s).mapPort p f := by
  induction ls generalizing s with
  | nil => rfl
  | cons l ls ih =>
    have h : ∀ u, staleRequests (l :: ls) k u = staleRequests ls k (staleRequest l k u) := fun _ => rfl
    rw [h, h, staleRequest_mapPort, ih]

/-! ## The learns and the tracker -/

theorem endLearn_mapPort (l : Lane) (s : State) : endLearn l (s.mapPort p f) = (endLearn l s).mapPort p f := by
  unfold endLearn
  exact ite_mapPort (fun _ => rfl) (fun _ => raise_mapPort hf .learned rfl)

theorem learnClose_mapPort (s : State) (l : Lane) : learnClose (s.mapPort p f) l = (learnClose s l).mapPort p f := by
  unfold learnClose
  dsimp only [State.mapPort_engines]
  cases (s.engines.get l).learn.state with
  | idle => rfl
  | ending => rfl
  | active =>
    cases (s.engines.get l).learn.counted with
    | none => exact endLearn_mapPort hf l s
    | some k => rfl

theorem foldl_learnClose_mapPort (ls : List Lane) (s : State) :
    ls.foldl learnClose (s.mapPort p f) = (ls.foldl learnClose s).mapPort p f := by
  induction ls generalizing s with
  | nil => rfl
  | cons l ls ih => rw [List.foldl_cons, List.foldl_cons, learnClose_mapPort hf, ih]

omit hf in
theorem publish_mapPort (before : LockPoint) (k : TrackerEventKind) (want : Position) (s : State) :
    publish before k want (s.mapPort p f) = (publish before k want s).mapPort p f := by
  have hb : ∀ x q, blockHolding ((s.mapPort p f).setTracker x) q = blockHolding (s.setTracker x) q := fun _ _ => rfl
  unfold publish
  dsimp only [State.mapPort_tracker]
  rw [hb]
  cases blockHolding _ _ with
  | none => exact ite_mapPort (fun _ => rfl) (fun _ => rfl)
  | some b => exact ite_mapPort (fun _ => rfl) (fun _ => rfl)

theorem enterHoldover_mapPort (q : Position) (s : State) :
    enterHoldover q (s.mapPort p f) = (enterHoldover q s).mapPort p f :=
  raise_mapPort hf .humloss (publish_mapPort _ _ _ (s.setTracker _))

theorem trackerReport_mapPort (q : Position) (s : State) :
    trackerReport q (s.mapPort p f) = (trackerReport q s).mapPort p f := by
  unfold trackerReport
  exact ite_mapPort (fun _ => enterHoldover_mapPort hf q s) (fun _ => rfl)

/-! ## Scan Input -/

omit hf in
theorem writeOriginal_mapPort (l : Lane) (v : Sample) (s : State) :
    writeOriginal l v (s.mapPort p f) = (writeOriginal l v s).mapPort p f := by
  have hb : fillingBlock (s.mapPort p f) = fillingBlock s := rfl
  unfold writeOriginal
  rw [hb]
  cases fillingBlock s <;> rfl

omit hf in
theorem foldl_writeOriginal_mapPort (v : Sample) (ls : List Lane) (s : State) :
    ls.foldl (fun t l => writeOriginal l v t) (s.mapPort p f) = (ls.foldl (fun t l => writeOriginal l v t) s).mapPort p f := by
  induction ls generalizing s with
  | nil => rfl
  | cons l ls ih => rw [List.foldl_cons, List.foldl_cons, writeOriginal_mapPort, ih]

theorem countPosition_mapPort {s t : State} (ht : t = s.mapPort p f) : countPosition t = (countPosition s).mapPort p f := by
  rw [ht]
  exact trackerReport_mapPort hf s.scan.next (advancePosition s)

/-- A run with a port changed in the state that it has come to. -/
def Run.mapPort (r : Run) (p : Port) (f : PortState → PortState) : Run :=
  match r with
  | .done s => .done (s.mapPort p f)
  | .stalled s n => .stalled (s.mapPort p f) n
  | .ended s => .ended (s.mapPort p f)

omit hf in
theorem Run.andThen_mapPort {g h : State → Run} (hg : ∀ s, h (s.mapPort p f) = (g s).mapPort p f) (r : Run) :
    (r.mapPort p f).andThen h = (r.andThen g).mapPort p f := by
  cases r with
  | done s => exact hg s
  | stalled | ended => rfl

theorem secure_mapPort (s : State) : secure (s.mapPort p f) = (secure s).mapPort p f := by
  have hb : fillingBlock (s.mapPort p f) = fillingBlock s := rfl
  have hfree : freeSlot (s.mapPort p f) = freeSlot s := rfl
  obtain ⟨h, hs⟩ | ⟨h, hc, hs⟩ | ⟨h, hc, hn, hs⟩ | ⟨slot, h, hc, hn, hs⟩ := secure_cases s <;> rw [hs]
  · rw [secure, hb, if_pos h]
    rfl
  · rw [secure, hb, h, State.mapPort_window, if_neg (by simp), if_pos hc]
    exact congrArg Run.ended (raise_mapPort hf .link rfl)
  · rw [secure, hb, h, State.mapPort_window, if_neg (by simp), if_neg (Nat.not_le.mpr hc), hfree, hn]
    exact congrArg (Run.stalled · 0) (raise_mapPort hf .winfull rfl)
  · rw [secure, hb, h, State.mapPort_window, if_neg (by simp), if_neg (Nat.not_le.mpr hc), hfree, hn]
    rfl

theorem fillVoids_mapPort (g : FilmFlag) (n : Nat) (s : State) :
    fillVoids g n (s.mapPort p f) = (fillVoids g n s).mapPort p f := by
  induction n generalizing s with
  | zero => rfl
  | succ n ih =>
    rw [fillVoids, fillVoids, secure_mapPort hf]
    cases secure s with
    | done s1 =>
      have hvoids : writeVoids (s1.mapPort p f) = (writeVoids s1).mapPort p f := foldl_writeOriginal_mapPort _ _ s1
      have hcount : countPosition (flagFilling g (writeVoids (s1.mapPort p f))) =
          (countPosition (flagFilling g (writeVoids s1))).mapPort p f := by
        rw [hvoids]
        exact countPosition_mapPort hf rfl
      exact (congrArg (fun t => fillVoids g n ((clearLanesWritten t).setFill n)) hcount).trans
        (ih ((clearLanesWritten (countPosition (flagFilling g (writeVoids s1)))).setFill n))
    | stalled | ended => rfl

theorem placeSample_mapPort (c : PacketContext) (bits : List Bool) (s : State) :
    placeSample c bits (s.mapPort p f) = (placeSample c bits s).mapPort p f := by
  have hl : activeLanes (s.mapPort p f) = activeLanes s := rfl
  unfold placeSample
  rw [hl]
  cases (activeLanes s)[c.lanesWritten]? with
  | none => rfl
  | some l =>
    dsimp only
    rw [State.mapPort_pass, writeOriginal_mapPort]
    exact ite_mapPort (fun _ => rfl) (fun _ => countPosition_mapPort hf rfl)

theorem unpackBits_mapPort (bits : List Bool) (k : Nat) (s : State) :
    unpackBits bits k (s.mapPort p f) = (unpackBits bits k s).mapPort p f := by
  induction bits generalizing k s with
  | nil => rfl
  | cons bit rest ih =>
    rw [unpackBits, unpackBits, State.mapPort_scan]
    cases hc : s.scan.context with
    | none => rfl
    | some c =>
      have ha : assembled (s.mapPort p f) c = assembled s c := rfl
      dsimp only
      rw [ha, State.mapPort_pass]
      split
      · rfl
      · split
        · exact ih (k + 1) (s.setContext _)
        · rw [secure_mapPort hf]
          cases secure s with
          | done s1 =>
            dsimp only [Run.mapPort]
            rw [placeSample_mapPort hf]
            exact ih _ _
          | stalled | ended => rfl

theorem listGap_mapPort (d : Nat) (s : State) : listGap d (s.mapPort p f) = (listGap d s).mapPort p f := by
  unfold listGap
  exact ite_mapPort (fun _ => raise_mapPort hf .unlisted rfl) (fun _ => listEntry_mapPort hf _ s)

theorem judgeSlip_mapPort (x y : Word32) (s : State) : judgeSlip x y (s.mapPort p f) = (judgeSlip x y s).mapPort p f := by
  have h : ∀ u v : State, u = v.mapPort p f → trackerSlip s.scan.next (flagFilling .slip u) =
      (trackerSlip s.scan.next (flagFilling .slip v)).mapPort p f := by
    rintro u v rfl
    rfl
  unfold judgeSlip
  exact h _ _ (ite_mapPort (fun _ => rfl) (fun _ => listEntry_mapPort hf _ s))

theorem judgeHeader_mapPort (a b : Word32) (s : State) :
    judgeHeader a b (s.mapPort p f) = (judgeHeader a b s).mapPort p f := by
  unfold judgeHeader
  dsimp only
  rw [State.mapPort_scan]
  split
  · rfl
  · split
    · rw [listGap_mapPort hf]
      rw [show ((listGap (b - BitVec.setWidth 32 s.scan.next).toInt.toNat s).mapPort p f).setFill
          (b - BitVec.setWidth 32 s.scan.next).toInt.toNat =
        ((listGap (b - BitVec.setWidth 32 s.scan.next).toInt.toNat s).setFill
          (b - BitVec.setWidth 32 s.scan.next).toInt.toNat).mapPort p f from rfl, fillVoids_mapPort hf]
      exact Run.andThen_mapPort (fun _ => rfl) _
    · exact congrArg (fun t => Run.done (openPacket a t)) (judgeSlip_mapPort hf _ _ s)

theorem takeWordB_mapPort (b : Word32) (s : State) : takeWordB b (s.mapPort p f) = (takeWordB b s).mapPort p f := by
  have hdrop : ∀ u : State, dropHeader .discard (u.mapPort p f) = (dropHeader .discard u).mapPort p f :=
    fun _ => linkFault_mapPort hf rfl
  unfold takeWordB
  rw [State.mapPort_scan]
  cases s.scan.heldWord with
  | none => exact congrArg Run.done (hdrop s)
  | some a =>
    have hv : headerValid (s.mapPort p f) a = headerValid s a := rfl
    dsimp only
    rw [hv]
    split
    · rw [secure_mapPort hf]
      exact Run.andThen_mapPort (fun t => judgeHeader_mapPort hf a b t) _
    · exact congrArg Run.done (hdrop s)

theorem faultFill_mapPort (s : State) : faultFill (s.mapPort p f) = (faultFill s).mapPort p f := fillVoids_mapPort hf _ _ s

theorem continueEntry_mapPort (e : FifoEntry) (k : Nat) {s t : State} (ht : t = s.mapPort p f) :
    continueEntry e k t = (continueEntry e k s).mapPort p f := by
  rw [ht]
  have hhead : (faultFill (s.mapPort p f)).andThen (fun t => .done (takeWordA e.word t)) =
      ((faultFill s).andThen (fun t => .done (takeWordA e.word t))).mapPort p f := by
    rw [faultFill_mapPort hf]
    exact Run.andThen_mapPort (fun _ => rfl) _
  unfold continueEntry
  rw [State.mapPort_scan]
  cases e.tag with
  | head =>
    cases s.scan.packet with
    | header =>
      cases s.scan.pendingFill with
      | zero => exact takeWordB_mapPort hf _ s
      | succ n =>
        cases s.scan.heldWord with
        | none => rfl
        | some a =>
          dsimp only
          rw [fillVoids_mapPort hf]
          exact Run.andThen_mapPort (fun _ => rfl) _
    | none | opened | damaged | discard => exact hhead
  | close =>
    dsimp only
    rw [faultFill_mapPort hf]
    exact Run.andThen_mapPort (fun _ => rfl) _
  | data => exact unpackBits_mapPort hf _ _ s
  | mark => rfl

omit hf in
theorem actLoss_mapPort {s t : State} (ht : t = s.mapPort p f) : actLoss t = (actLoss s).mapPort p f := by
  rw [ht]
  have hp : (flagFilling .link (s.mapPort p f)).scan = (flagFilling .link s).scan := rfl
  unfold actLoss
  dsimp only
  rw [hp]
  cases (flagFilling .link s).scan.packet <;> rfl

omit hf in
theorem finishEntry_mapPort (e : FifoEntry) (r : Run) : finishEntry e (r.mapPort p f) = (finishEntry e r).mapPort p f := by
  cases r with
  | done s => exact ite_mapPort (fun _ => actLoss_mapPort rfl) (fun _ => rfl)
  | stalled | ended => rfl

theorem resumeStall_mapPort (s : State) : resumeStall (s.mapPort p f) = (resumeStall s).mapPort p f := by
  unfold resumeStall
  refine ite_mapPort (fun _ => ?_) (fun _ => rfl)
  dsimp only
  rw [State.mapPort_scan]
  cases s.scan.suspended with
  | none => rfl
  | some x =>
    exact Eq.trans (congrArg (finishEntry x.entry) (continueEntry_mapPort hf _ _ rfl)) (finishEntry_mapPort x.entry _)

end

end Sys2Proof.Machine
end

section
/-! The fifteen requests taken at frame end, each tied once to its frame: refused, taken, sent in parts, and ended as things
then stand (O5). -/

namespace Sys2Proof.Machine

/-! ## What the takings leave of a frame change -/

/-- A taking that a change of the frame in progress on a port passes through. -/
def PassesThrough (p : Port) (take : State → State × Result) : Prop :=
  ∀ f, FrameChange f → ∀ s, take (s.mapPort p f) = ((take s).1.mapPort p f, (take s).2)

theorem ite_passes {c : Prop} [Decidable c] {x y x' y' : State × Result} {p : Port} {f : PortState → PortState}
    (hx : c → x' = (x.1.mapPort p f, x.2)) (hy : ¬c → y' = (y.1.mapPort p f, y.2)) :
    (if c then x' else y') = ((if c then x else y).1.mapPort p f, (if c then x else y).2) := by
  split
  · next h => exact hx h
  · next h => exact hy h

theorem takeOpen_passes (p : Port) (a : OpenArgs) : PassesThrough p (takeOpen a) := by
  intro f hf s
  unfold takeOpen
  cases openParameters a <;> rfl

theorem takeClose_passes (p : Port) (u : Unit) : PassesThrough p (takeClose u) := by
  intro f hf s
  have hr : releaseRule { s.mapPort p f with pass := { s.pass with state := .closing } } =
      (releaseRule { s with pass := { s.pass with state := .closing } }).mapPort p f := releaseRule_mapPort hf rfl
  unfold takeClose
  dsimp only [State.mapPort_pass]
  rw [hr, foldl_learnClose_mapPort hf]

theorem abandonPass_mapPort {p : Port} {f : PortState → PortState} (hf : FrameChange f) (s : State) :
    abandonPass (s.mapPort p f) = (abandonPass s).mapPort p f :=
  congrArg (fun x => ({ abandonPass s with ports := x } : State))
    (map_mapPort (s := s) (p := p) (g := PortState.cutDrain) (fun q => (hf.drain q _).symm))

theorem takeAbort_passes (p : Port) (u : Unit) : PassesThrough p (takeAbort u) := by
  intro f hf s
  unfold takeAbort
  exact congrArg (·, Result.done) (ite_mapPort (fun _ => rfl) (fun _ => abandonPass_mapPort hf s))

theorem listSplice_mapPort {p : Port} {f : PortState → PortState} (hf : FrameChange f) (q : Position) (s : State) :
    listSplice q (s.mapPort p f) = (listSplice q s).mapPort p f := by
  unfold listSplice
  rw [State.mapPort_pass, listEntry_mapPort hf]
  exact staleRequests_mapPort _ _ _

theorem takeSplice_passes (p : Port) (q : Position) : PassesThrough p (takeSplice q) := by
  intro f hf s
  unfold takeSplice
  refine ite_passes (fun _ => rfl) (fun _ => ite_passes (fun _ => rfl) (fun _ => ite_passes (fun _ => rfl)
    (fun _ => ite_passes (fun _ => rfl) (fun _ => ?_))))
  exact congrArg (·, Result.done) (listSplice_mapPort hf _ s)

theorem takeLput_passes (p : Port) (a : LputArgs) : PassesThrough p (takeLput a) := by
  intro f hf s
  unfold takeLput
  cases Lane.ofNat? a.lane.toNat with
  | none => rfl
  | some l =>
    dsimp only [State.mapPort_engines]
    cases storedValue (s.engines.get l).settings a.parameter.toNat a.value.toNat <;> rfl

theorem takeLearn_passes (p : Port) (a : LearnArgs) : PassesThrough p (takeLearn a) := by
  intro f hf s
  unfold takeLearn
  cases Lane.ofNat? a.lane.toNat with
  | none => rfl
  | some l => exact ite_passes (fun _ => rfl) (fun _ => rfl)

theorem takeHold_passes (p : Port) (h : Byte) : PassesThrough p (takeHold h) := fun _ hf _ =>
  congrArg (·, doneOrClamped (min Config.maxHold h.toNat != h.toNat)) (releaseRule_mapPort hf rfl)

theorem takeRls_passes (p : Port) (n : Word32) : PassesThrough p (takeRls n) := fun _ hf _ =>
  congrArg (·, Result.done) (releaseRule_mapPort hf rfl)

theorem setDecision_mapPort {p : Port} {f : PortState → PortState} (e : Entry) (d : Decision) (s : State) :
    setDecision e d (s.mapPort p f) = (setDecision e d s).mapPort p f := by
  unfold setDecision
  exact ite_mapPort (fun _ => rfl) (fun _ => staleRequests_mapPort _ _ (s.setEntries _))

theorem takeCdec_passes (p : Port) (a : CdecArgs) : PassesThrough p (takeCdec a) := by
  intro f hf s
  have he : entryNumbered (s.mapPort p f) a.number.toNat = entryNumbered s a.number.toNat := rfl
  unfold takeCdec
  rw [he]
  cases Decision.ofCode a.decision with
  | none => rfl
  | some d =>
    cases entryNumbered s a.number.toNat with
    | none => rfl
    | some e =>
      exact ite_passes (fun _ => rfl) (fun _ => ite_passes (fun _ => rfl)
        (fun _ => congrArg (·, Result.done) (setDecision_mapPort e d s)))

theorem freeBlock_mapPort {p : Port} {f : PortState → PortState} (hf : FrameChange f) (b : Block) (s : State) :
    freeBlock b (s.mapPort p f) = (freeBlock b s).mapPort p f :=
  congrArg (fun x => ({ freeBlock b s with ports := x } : State))
    (map_mapPort (s := s) (p := p) (g := PortState.cutBoundTo b.number) (fun q => (hf.drain q _).symm))

theorem takeDack_passes (p : Port) (n : Word32) : PassesThrough p (takeDack n) := by
  intro f hf s
  have hd : drainHead (s.mapPort p f) = drainHead s := rfl
  unfold takeDack
  rw [hd]
  cases drainHead s with
  | none => rfl
  | some b =>
    refine ite_passes (fun _ => ?_) (fun _ => rfl)
    rw [freeBlock_mapPort hf, resumeStall_mapPort hf, reportReleased_mapPort hf rfl, endedToIdle_mapPort hf rfl]

theorem takeGrant_passes (p : Port) (a : GrantArgs) : PassesThrough p (takeGrant a) := by
  intro f hf s
  unfold takeGrant
  cases Resource.ofCode a.resource <;> cases Port.ofNat? a.port.toNat <;> rfl

theorem restoreDefaults_mapPort {p : Port} {f : PortState → PortState} (hf : FrameChange f) (s : State) :
    restoreDefaults (s.mapPort p f) = (restoreDefaults s).mapPort p f := by
  have h : ∀ q : PortState, ({ f q with events := 0#11, mask := 0#11, lastResult := .done } : PortState) =
      f { q with events := 0#11, mask := 0#11, lastResult := .done } := by
    intro q
    have h1 := hf.last { q with events := 0#11, mask := 0#11 } .done
    have h2 := hf.mask { q with events := 0#11 } 0#11
    have h3 := hf.events q 0#11
    rw [h1, h2, h3]
  exact congrArg (fun x => ({ restoreDefaults s with ports := x } : State))
    (map_mapPort (s := s) (p := p) (g := fun q => { q with events := 0#11, mask := 0#11, lastResult := .done }) h)

theorem takeRstp_passes (p : Port) (u : Unit) : PassesThrough p (takeRstp u) := by
  intro f hf s
  unfold takeRstp
  rw [abandonPass_mapPort hf, restoreDefaults_mapPort hf]

theorem takeCseek_passes (p : Port) (a : CseekArgs) : PassesThrough p (takeCseek p a) := by
  intro f hf s
  have ht : ∀ m, seekTarget (s.mapPort p f) m a = seekTarget s m a := fun _ => rfl
  unfold takeCseek
  cases SeekMode.ofCode a.mode with
  | none => rfl
  | some m =>
    cases Direction.ofCode a.direction with
    | none => rfl
    | some d =>
      dsimp only
      rw [ht]
      cases seekTarget s m a <;> rfl

theorem takeEvclr_passes (p : Port) (m : BitVec 16) : PassesThrough p (takeEvclr p m) := by
  intro f hf s
  unfold takeEvclr
  refine congrArg (·, Result.done) ?_
  simp only [State.mapPort_mapPort]
  refine congrArg (State.mapPort s p) (funext fun q => ?_)
  exact (congrArg (fun e => ({ f q with events := e &&& ~~~(eventArgument m) } : PortState)) (hf.events_eq q)).trans
    (hf.events q _).symm

theorem takeEvmask_passes (p : Port) (m : BitVec 16) : PassesThrough p (takeEvmask p m) := by
  intro f hf s
  unfold takeEvmask
  refine congrArg (·, Result.done) ?_
  simp only [State.mapPort_mapPort]
  refine congrArg (State.mapPort s p) (funext fun q => ?_)
  exact (hf.mask q _).symm

/-! ## Argument bytes that spell their arguments -/

theorem bytes4_join (v : Word32) :
    v.extractLsb' 24 8 ++ v.extractLsb' 16 8 ++ v.extractLsb' 8 8 ++ v.extractLsb' 0 8 = v := by
  rw [field_append_byte v 8 (low := 16) rfl, field_append_byte v 16 (low := 8) rfl, field_append_byte v 24 (low := 0) rfl,
    BitVec.extractLsb'_eq_self]

theorem positionArgOf_bytes5 (a : Position) : positionArgOf (bytes5 a) = some a := congrArg some (bytes5_join a)

theorem wordArgOf_bytes4 (a : Word32) : wordArgOf (bytes4 a) = some a := congrArg some (bytes4_join a)

theorem halfArgOf_bytes2 (a : BitVec 16) : halfArgOf (bytes2 a) = some a := congrArg some (bytes2_join a)

theorem byteArgOf_byteArg (a : Byte) : byteArgOf (byteArg a) = some a := rfl

theorem noArgsOf_noArgs (a : Unit) : noArgsOf (noArgs a) = some a := rfl

theorem LputArgs.ofBytes_toBytes (a : LputArgs) : LputArgs.ofBytes a.toBytes = some a :=
  congrArg some (by simp only [bytes4_join])

theorem LearnArgs.ofBytes_toBytes (a : LearnArgs) : LearnArgs.ofBytes a.toBytes = some a := rfl

theorem LgetArgs.ofBytes_toBytes (a : LgetArgs) : LgetArgs.ofBytes a.toBytes = some a := rfl

theorem ProbeArgs.ofBytes_toBytes (a : ProbeArgs) : ProbeArgs.ofBytes a.toBytes = some a := rfl

theorem CdecArgs.ofBytes_toBytes (a : CdecArgs) : CdecArgs.ofBytes a.toBytes = some a :=
  congrArg some (by simp only [bytes2_join])

theorem CseekArgs.ofBytes_toBytes (a : CseekArgs) : CseekArgs.ofBytes a.toBytes = some a :=
  congrArg some (by simp only [bytes2_join, bytes5_join])

/-! ## A request taken at frame end, as a command -/

/-- The commands `c` carry the frames of a request taken at frame end. -/
structure IsRequest {α : Type} (c : Frame α → Instr) (p : Port) (r : Request) (enc : α → List Byte)
    (dec : List Byte → Option α) (lane : α → Byte) (take : α → State → State × Result) : Prop where
  exec_eq : ∀ f s, exec (c f) s = completed (commandFrame p r enc dec lane take f s)
  decodes : ∀ a, dec (enc a) = some a
  passes  : ∀ a, PassesThrough p (take a)

theorem openPass_isRequest (p : Port) :
    IsRequest (Instr.openPass p) p .openPass OpenArgs.toBytes OpenArgs.ofBytes noLane takeOpen :=
  ⟨fun _ _ => rfl, OpenArgs.ofBytes_toBytes, takeOpen_passes p⟩

theorem closePass_isRequest (p : Port) :
    IsRequest (Instr.closePass p) p .closePass noArgs noArgsOf noLane takeClose :=
  ⟨fun _ _ => rfl, noArgsOf_noArgs, takeClose_passes p⟩

theorem abort_isRequest (p : Port) : IsRequest (Instr.abort p) p .abort noArgs noArgsOf noLane takeAbort :=
  ⟨fun _ _ => rfl, noArgsOf_noArgs, takeAbort_passes p⟩

theorem splice_isRequest (p : Port) : IsRequest (Instr.splice p) p .splice bytes5 positionArgOf noLane takeSplice :=
  ⟨fun _ _ => rfl, positionArgOf_bytes5, takeSplice_passes p⟩

theorem lput_isRequest (p : Port) :
    IsRequest (Instr.lput p) p .lput LputArgs.toBytes LputArgs.ofBytes LputArgs.lane takeLput :=
  ⟨fun _ _ => rfl, LputArgs.ofBytes_toBytes, takeLput_passes p⟩

theorem learn_isRequest (p : Port) :
    IsRequest (Instr.learn p) p .learn LearnArgs.toBytes LearnArgs.ofBytes LearnArgs.lane takeLearn :=
  ⟨fun _ _ => rfl, LearnArgs.ofBytes_toBytes, takeLearn_passes p⟩

theorem hold_isRequest (p : Port) : IsRequest (Instr.hold p) p .hold byteArg byteArgOf noLane takeHold :=
  ⟨fun _ _ => rfl, byteArgOf_byteArg, takeHold_passes p⟩

theorem rls_isRequest (p : Port) : IsRequest (Instr.rls p) p .rls bytes4 wordArgOf noLane takeRls :=
  ⟨fun _ _ => rfl, wordArgOf_bytes4, takeRls_passes p⟩

theorem cdec_isRequest (p : Port) :
    IsRequest (Instr.cdec p) p .cdec CdecArgs.toBytes CdecArgs.ofBytes noLane takeCdec :=
  ⟨fun _ _ => rfl, CdecArgs.ofBytes_toBytes, takeCdec_passes p⟩

theorem dack_isRequest (p : Port) : IsRequest (Instr.dack p) p .dack bytes4 wordArgOf noLane takeDack :=
  ⟨fun _ _ => rfl, wordArgOf_bytes4, takeDack_passes p⟩

theorem grant_isRequest (p : Port) :
    IsRequest (Instr.grant p) p .grant GrantArgs.toBytes GrantArgs.ofBytes noLane takeGrant :=
  ⟨fun _ _ => rfl, GrantArgs.ofBytes_toBytes, takeGrant_passes p⟩

theorem rstp_isRequest (p : Port) : IsRequest (Instr.rstp p) p .rstp noArgs noArgsOf noLane takeRstp :=
  ⟨fun _ _ => rfl, noArgsOf_noArgs, takeRstp_passes p⟩

theorem cseek_isRequest (p : Port) :
    IsRequest (Instr.cseek p) p .cseek CseekArgs.toBytes CseekArgs.ofBytes noLane (takeCseek p) :=
  ⟨fun _ _ => rfl, CseekArgs.ofBytes_toBytes, takeCseek_passes p⟩

theorem evclr_isRequest (p : Port) : IsRequest (Instr.evclr p) p .evclr bytes2 halfArgOf noLane (takeEvclr p) :=
  ⟨fun _ _ => rfl, halfArgOf_bytes2, takeEvclr_passes p⟩

theorem evmask_isRequest (p : Port) : IsRequest (Instr.evmask p) p .evmask bytes2 halfArgOf noLane (takeEvmask p) :=
  ⟨fun _ _ => rfl, halfArgOf_bytes2, takeEvmask_passes p⟩

section
variable {α : Type} {c : Frame α → Instr} {p : Port} {r : Request} {enc : α → List Byte} {dec : List Byte → Option α}
  {lane : α → Byte} {take : α → State → State × Result}

/-- A whole frame that its check refuses (R168, R174). -/
theorem IsRequest.refused (hc : IsRequest c p r enc dec lane take) {s : State} {a : α} (n : Nat) (hfree : s.portFree p)
    (hr : acceptance s p r (lane a) ≠ .done) :
    exec (c (.whole a n)) s = .next (settle (s.frameEnded p (acceptance s p r (lane a)) (statusReply s p n))) := by
  rw [hc.exec_eq]
  exact congrArg completed (commandFrame_refused hfree (hc.decodes a) hr)

/-- A whole frame that passes its check: the taking, and the end of the frame with its result (R168, R174). -/
theorem IsRequest.taken (hc : IsRequest c p r enc dec lane take) {s : State} {a : α} (n : Nat) (hfree : s.portFree p)
    (hr : acceptance s p r (lane a) = .done) :
    exec (c (.whole a n)) s = .next (settle ((take a s).1.frameEnded p (take a s).2 (statusReply s p n))) := by
  rw [hc.exec_eq, commandFrame_taken hfree (hc.decodes a) hr]
  dsimp only
  rw [hc.passes a _ (FrameChange.replied ..), endFrame_replied]
  rfl

/-- A judged state is settled. -/
theorem settle_of_judged {s : State} (h : OutputsJudged s) : settle s = s := by
  obtain ⟨hready, hports⟩ := h
  have hr : readyOf s = s.scan.ready := Bool.eq_iff_iff.mpr (readyOf_iff.trans hready.symm)
  have hp : s.ports.map (fun q => { q with attention := attentionOf q }) = s.ports := by
    refine PerPort.ext_get (fun p => ?_)
    have ha : attentionOf (s.ports.get p) = (s.ports.get p).attention :=
      Bool.eq_iff_iff.mpr (attentionOf_iff.trans (hports p (Port.mem_all p)).symm)
    rw [PerPort.get_map, ha]
  unfold settle
  rw [hp, hr]

/-- A judged state stays judged as a frame is clocked: neither the event set nor the mask changes. -/
theorem settle_replied {s : State} (h : OutputsJudged s) (bytes : List Byte) (n : Nat) (status : Byte) (driven : List Nibble) :
    settle (s.mapPort p (fun q => q.replied bytes n status driven)) = s.mapPort p (fun q => q.replied bytes n status driven) := by
  refine settle_of_judged ⟨h.1, fun x hx => ?_⟩
  rw [State.mapPort_ports, PerPort.get_set]
  split
  · next hxp => exact hxp ▸ h.2 x hx
  · exact h.2 x hx

/-- A frame sent in parts with nothing between them (R166). -/
theorem IsRequest.parts (hc : IsRequest c p r enc dec lane take) {s : State} (a : α) (n : Nat) (hfree : s.portFree p)
    (hj : OutputsJudged s) : PartsMakeTheWhole c a n s := by
  have hd : deselected s p = true := by simp [deselected, hfree]
  refine ⟨receiveRequest p r (enc a) s, shiftNibbles statusSource p n (receiveRequest p r (enc a) s), ?_, ?_, ?_⟩
  · rw [hc.exec_eq, commandFrame, if_pos hd, receiveRequest_eq, completed, settle_replied hj]
  · have hin : inFrame (receiveRequest p r (enc a) s) p r = true :=
      inFrame_replied s p r (enc a) 0 (statusByte s p) []
    rw [hc.exec_eq, commandFrame, if_pos hin, shiftNibbles_status, completed, settle_replied hj]
  · rw [hc.exec_eq, hc.exec_eq, commandFrame, commandFrame, if_pos hd]

/-- The port with no frame under way and nothing driven. -/
def PortState.withoutFrame (q : PortState) : PortState := q.afterFrame q.lastResult []

theorem FrameChange.withoutFrame : FrameChange PortState.withoutFrame :=
  ⟨fun _ _ => rfl, fun _ _ => rfl, fun _ _ => rfl, fun _ _ => rfl⟩

/-- What a frame has driven stays as its taking acts. -/
theorem IsRequest.driven_kept (hc : IsRequest c p r enc dec lane take) (a : α) (s : State) :
    ((take a s).1.ports.get p).driven = (s.ports.get p).driven := by
  have hs : s.mapPort p (fun q => { q with driven := (s.ports.get p).driven }) = s := by
    rw [State.mapPort]
    exact congrArg (fun x => ({ s with ports := x } : State)) (PerPort.set_get ..)
  have h := hc.passes a _ (FrameChange.setDriven (s.ports.get p).driven) s
  rw [hs] at h
  rw [h, State.mapPort_ports, PerPort.get_set_self]

theorem settle_setDriven (s : State) (d : List Nibble) :
    settle (s.mapPort p (fun q => { q with driven := d })) = (settle s).mapPort p (fun q => { q with driven := d }) :=
  congrArg (fun x => ({ settle s with ports := x } : State))
    (map_mapPort (s := s) (p := p) (f := fun q => { q with driven := d })
      (g := fun q => { q with attention := attentionOf q }) (fun _ => rfl))

/-- The end of a frame, the nibbles it drove apart. -/
theorem endFrame_eq_setDriven (s : State) (res : Result) :
    endFrame p res s = (s.frameEnded p res []).mapPort p (fun q => { q with driven := (s.ports.get p).driven }) := by
  have h : s.frameEnded p res [] = s.mapPort p (fun q => q.afterFrame res []) := rfl
  rw [h, State.mapPort_mapPort]
  rfl

theorem frameEnded_withoutFrame (s : State) (res : Result) (d : List Nibble) :
    (s.mapPort p PortState.withoutFrame).frameEnded p res d = s.frameEnded p res d := by
  have h : ∀ t : State, t.frameEnded p res d = t.mapPort p (fun q => q.afterFrame res d) := fun _ => rfl
  rw [h, h, State.mapPort_mapPort]
  rfl

/-- The rise of select acts as things then stand: the taking reads nothing of the frame (R168, R172). -/
theorem IsRequest.finish (hc : IsRequest c p r enc dec lane take) {s : State} (a : α)
    (hframe : (s.ports.get p).frame = .replying) (hreceived : (s.ports.get p).received = r.code :: enc a) :
    FinishActsAsThingsStand c p a s := by
  have hin : inFrame s p r = true := by simp [inFrame, hframe, hreceived]
  have hargs : dec (receivedArgs s p) = some a := by rw [receivedArgs, hreceived]; exact hc.decodes a
  have hs0 : s.frameEnded p (s.ports.get p).lastResult [] = s.mapPort p PortState.withoutFrame := rfl
  have hfree : (s.mapPort p PortState.withoutFrame).portFree p :=
    (congrArg PortState.frame (PerPort.get_set_self _ _ _) :)
  have hfinish : exec (c .finish) s = completed (finishCommand p r dec lane take s) := hc.exec_eq _ _
  unfold FinishActsAsThingsStand
  rw [hs0, hfinish, finishCommand, if_pos hin, hargs]
  dsimp only
  by_cases hdone : acceptance s p r (lane a) = .done
  · refine ⟨_, hc.taken 0 hfree hdone, ?_⟩
    rw [hc.passes a _ FrameChange.withoutFrame s, hdone]
    dsimp only
    rw [frameEnded_withoutFrame, endFrame_eq_setDriven, hc.driven_kept, completed, settle_setDriven]
    rfl
  · refine ⟨_, hc.refused 0 hfree hdone, ?_⟩
    rw [acceptance_mapPort, frameEnded_withoutFrame]
    split
    · next h => exact absurd h hdone
    · rw [endFrame_eq_setDriven, completed, settle_setDriven]
      rfl

end

/-- Settles O5: one argument for every request, `IsRequest`, by what its check answers and by the parts of its frame. -/
theorem refusedRequestsChangeNothing : Obligations.RefusedRequestsChangeNothing := fun _ p =>
  ⟨fun _ n hfree => (openPass_isRequest p).refused n hfree,
    fun _ n hfree => (closePass_isRequest p).refused n hfree,
    fun _ n hfree => (abort_isRequest p).refused n hfree,
    fun _ n hfree => (splice_isRequest p).refused n hfree,
    fun _ n hfree => (lput_isRequest p).refused n hfree,
    fun _ n hfree => (learn_isRequest p).refused n hfree,
    fun _ n hfree => (hold_isRequest p).refused n hfree,
    fun _ n hfree => (rls_isRequest p).refused n hfree,
    fun _ n hfree => (cdec_isRequest p).refused n hfree,
    fun _ n hfree => (dack_isRequest p).refused n hfree,
    fun _ n hfree => (grant_isRequest p).refused n hfree,
    fun _ n hfree => (rstp_isRequest p).refused n hfree,
    fun a n hfree hj => (openPass_isRequest p).parts a n hfree hj,
    fun a n hfree hj => (closePass_isRequest p).parts a n hfree hj,
    fun a n hfree hj => (abort_isRequest p).parts a n hfree hj,
    fun a n hfree hj => (splice_isRequest p).parts a n hfree hj,
    fun a n hfree hj => (lput_isRequest p).parts a n hfree hj,
    fun a n hfree hj => (learn_isRequest p).parts a n hfree hj,
    fun a n hfree hj => (hold_isRequest p).parts a n hfree hj,
    fun a n hfree hj => (rls_isRequest p).parts a n hfree hj,
    fun a n hfree hj => (cdec_isRequest p).parts a n hfree hj,
    fun a n hfree hj => (dack_isRequest p).parts a n hfree hj,
    fun a n hfree hj => (grant_isRequest p).parts a n hfree hj,
    fun a n hfree hj => (rstp_isRequest p).parts a n hfree hj,
    fun a n hfree hj => (cseek_isRequest p).parts a n hfree hj,
    fun a n hfree hj => (evclr_isRequest p).parts a n hfree hj,
    fun a n hfree hj => (evmask_isRequest p).parts a n hfree hj,
    fun a => (openPass_isRequest p).finish a,
    fun a => (closePass_isRequest p).finish a,
    fun a => (abort_isRequest p).finish a,
    fun a => (splice_isRequest p).finish a,
    fun a => (lput_isRequest p).finish a,
    fun a => (learn_isRequest p).finish a,
    fun a => (hold_isRequest p).finish a,
    fun a => (rls_isRequest p).finish a,
    fun a => (cdec_isRequest p).finish a,
    fun a => (dack_isRequest p).finish a,
    fun a => (grant_isRequest p).finish a,
    fun a => (rstp_isRequest p).finish a,
    fun a => (cseek_isRequest p).finish a,
    fun a => (evclr_isRequest p).finish a,
    fun a => (evmask_isRequest p).finish a⟩

end Sys2Proof.Machine
end

section
/-! Whole frames of HOLD, RLS, ABORT, RSTP, LPUT, LEARN, CSEEK and of the refused and taken CDEC and SPLICE (O8, O11, O12,
O15, O17 to O20, O22, O23, O31): each is its taking, since its check is passed. -/

namespace Sys2Proof.Machine

/-! ## When a check is passed -/

theorem acceptance_done {s : State} {p : Port} {r : Request} {x : Byte}
    (hright : ∀ res ∈ requiredResource r x, s.rights.owner res = p) (hstate : acceptedIn r s.pass.state = true) :
    acceptance s p r x = .done := by
  rw [acceptance_eq, if_neg, if_neg (by simp [hstate])]
  cases h : requiredResource r x with
  | none => simp
  | some res => simpa using hright res h

theorem Lane.ofNat?_eq_getElem? (k : Nat) : Lane.ofNat? k = Lane.all[k]? :=
  match k with
  | 0 | 1 | 2 | 3 | _ + 4 => rfl

theorem doneOrClamped_bne (v w : Nat) : doneOrClamped (v != w) = if v = w then Result.done else .clamped := by
  by_cases h : v = w <;> simp [doneOrClamped, h]

/-! ## HOLD and RLS (R48, R49) -/

/-- Settles O11. -/
theorem holdSetsReviewHold : Obligations.HoldSetsReviewHold := by
  intro s p h n hfree hright
  have hdone : acceptance s p .hold 0#8 = .done := acceptance_done (by simpa [requiredResource, Rights.owner]) rfl
  rw [(hold_isRequest p).taken n hfree hdone]
  have hmin : min Config.maxHold h.toNat = h.toNat ↔ h.toNat ≤ 48 := min_eq_right_iff
  simp only [takeHold, doneOrClamped_bne, hmin]
  rfl

theorem raisedMark_eq (m : Option Nat) (n : Nat) : raisedMark m n = max (m.getD 0) n := by
  cases m with
  | none => exact (Nat.zero_max n).symm
  | some m => rfl

/-- Settles O12. -/
theorem rlsRaisesReleaseMark : Obligations.RlsRaisesReleaseMark := by
  intro s p k n hfree hright hrun
  have hdone : acceptance s p .rls 0#8 = .done :=
    acceptance_done (by simpa [requiredResource, Rights.owner]) (by rw [hrun]; rfl)
  rw [(rls_isRequest p).taken n hfree hdone, takeRls, raisedMark_eq]

/-! ## ABORT and RSTP (R157, R180) -/

/-- Settles O15. -/
theorem abortDiscardsThePass : Obligations.AbortDiscardsThePass := by
  intro s p n hfree hright
  have hdone : acceptance s p .abort 0#8 = .done := acceptance_done (by simpa [requiredResource, Rights.owner]) rfl
  rw [(abort_isRequest p).taken n hfree hdone, takeAbort]
  refine ⟨fun hidle => by rw [if_pos hidle], fun hopen => ?_⟩
  rw [if_neg hopen]
  rfl

/-- A port after RSTP: nothing flagged, the last result DONE, and its drain read cut. -/
def PortState.restored (q : PortState) : PortState :=
  { q.cutDrain with events := 0#11, mask := 0#11, lastResult := .done }

theorem PortState.cutDrain_cut {q : PortState} {d : DrainRead} (h : d ∈ q.cutDrain.drain) : d.cut = true := by
  obtain ⟨d', -, rfl⟩ := Option.map_eq_some_iff.mp h
  rfl

theorem attentionOf_of_no_events {q : PortState} (h : q.events = 0#11) : attentionOf q = false := by
  rw [attentionOf, h, BitVec.zero_and]
  rfl

theorem rstp_ports (s : State) (x : Port) :
    ((restoreDefaults (abandonPass s)).ports.get x) = (s.ports.get x).restored := by
  unfold restoreDefaults abandonPass
  rw [PerPort.get_map, PerPort.get_map]
  rfl

/-- Settles O8. -/
theorem rstpRestoresDefaults : Obligations.RstpRestoresDefaults := by
  intro s p n hfree hright
  have hdone : acceptance s p .rstp 0#8 = .done := acceptance_done (by simpa [requiredResource, Rights.owner]) rfl
  refine ⟨_, (rstp_isRequest p).taken n hfree hdone, rfl, rfl, rfl, rfl, rfl, fun l => ?engine, rfl, rfl, ?frame, ?driven,
    fun x => ?port⟩
  case engine =>
    exact (PerLane.get_mapIdx _ _ _).trans (congrArg (fun e : LaneEngine => { e with settings := LaneSettings.defaults })
      (PerLane.get_mapIdx _ _ _))
  case frame => simp [PortState.afterFrame]
  case driven => simp [PortState.afterFrame]
  case port =>
    rw [settle_port]
    by_cases hx : x = p
    · subst hx
      rw [State.frameEnded_port_self, takeRstp, rstp_ports]
      exact ⟨rfl, rfl, attentionOf_of_no_events rfl, rfl, fun d h => (nomatch h)⟩
    · rw [State.frameEnded_port_other _ _ _ hx, takeRstp, rstp_ports]
      exact ⟨rfl, rfl, attentionOf_of_no_events rfl, rfl, fun d h => PortState.cutDrain_cut h⟩

/-! ## LPUT and LEARN (R127, R161, R162) -/

theorem storedValue_of_range {q : LaneSettings} {i v lo hi : Nat} (h : parameterRange i = some (lo, hi)) :
    storedValue q i v = some (
      let c := max lo (min v hi)
      if i = 6 then min c (12 - q.harmonicsB) else if i = 8 then min c (12 - q.harmonicsA) else c) := by
  unfold storedValue
  rw [h]
  dsimp only [clampNat]
  split
  · rfl
  · split <;> rfl

theorem parameterRange_eq (i : Nat) : parameterRange i =
    [(16, 1023), (0, 65535), (2, 8), (1, 48), (0, 1), (1, 65535), (0, 8), (1, 65535), (0, 8), (6, 24), (1, 8), (1, 12),
     (1, 16), (16, 255), (0, 32768), (0, 8388607)][i]? :=
  match i with
  | 0 | 1 | 2 | 3 | 4 | 5 | 6 | 7 | 8 | 9 | 10 | 11 | 12 | 13 | 14 | 15 | _ + 16 => rfl

theorem LaneSettings.get_put (q : LaneSettings) {i : Nat} (j v : Nat) (hi : i < 16) :
    (q.put i v).get j = if j = i then some v else q.get j := by
  split
  · next h =>
    subst h
    interval_cases j <;> rfl
  · next h =>
    match j with
    | 0 | 1 | 2 | 3 | 4 | 5 | 6 | 7 | 8 | 9 | 10 | 11 | 12 | 13 | 14 | 15 | _ + 16 =>
      interval_cases i <;> first | rfl | exact absurd rfl h

theorem takeLput_stored {s : State} {a : LputArgs} {l : Lane} {v : Nat} (hl : Lane.all[a.lane.toNat]? = some l)
    (hv : storedValue (s.engines.get l).settings a.parameter.toNat a.value.toNat = some v) :
    takeLput a s =
      (s.mapEngine l (fun e => { e with settings := e.settings.put a.parameter.toNat v }),
        doneOrClamped (v != a.value.toNat)) := by
  rw [← Lane.ofNat?_eq_getElem?] at hl
  simp only [takeLput, hl, hv]

theorem lput_done {s : State} {p : Port} {a : LputArgs} {l : Lane} (hl : Lane.all[a.lane.toNat]? = some l)
    (hright : s.rights.lanes.get l = p) : acceptance s p .lput a.lane = .done := by
  refine acceptance_done (fun res hres => ?_) rfl
  rw [requiredResource, Lane.ofNat?_eq_getElem?, hl] at hres
  cases hres
  exact hright

theorem Lane.ofNat?_eq_none {k : Nat} (h : 3 < k) : Lane.ofNat? k = none := by
  rw [Lane.ofNat?_eq_getElem?]
  exact List.getElem?_eq_none h

/-- Settles O19: the stored value is the range of the parameter and the sum of the harmonic counts, one after the other. -/
theorem lputStoresBroughtIntoRange : Obligations.LputStoresBroughtIntoRange := by
  refine ⟨fun q => rfl, fun q i j v hi => LaneSettings.get_put q j v hi, ?stores, ?noLane, ?noParameter⟩
  case stores =>
    intro s p a n l lo hi hfree hl hright hrange
    rw [← parameterRange_eq] at hrange
    rw [(lput_isRequest p).taken n hfree (lput_done hl hright), takeLput_stored hl (storedValue_of_range hrange),
      doneOrClamped_bne]
    rfl
  case noLane =>
    intro s p a n hfree hlane
    have hnone : Lane.ofNat? a.lane.toNat = none := Lane.ofNat?_eq_none hlane
    have hdone : acceptance s p .lput a.lane = .done :=
      acceptance_done (by simp [requiredResource, hnone]) rfl
    rw [(lput_isRequest p).taken n hfree hdone, takeLput, hnone]
  case noParameter =>
    intro s p a n l hfree hl hright hparameter
    have hnone : parameterRange a.parameter.toNat = none := by
      rw [parameterRange_eq]
      exact List.getElem?_eq_none hparameter
    rw [(lput_isRequest p).taken n hfree (lput_done hl hright)]
    rw [← Lane.ofNat?_eq_getElem?] at hl
    simp only [takeLput, hl, storedValue, hnone]

theorem mem_activeLanes {s : State} {l : Lane} : l ∈ activeLanes s ↔ s.pass.laneMask.getLsbD l.toNat = true := by
  have h : l ∈ Lane.all := by cases l <;> decide
  simp [activeLanes, lanesOf, h]

theorem learn_done {s : State} {p : Port} {a : LearnArgs} (hrun : s.pass.state = .running)
    (hright : ∀ l, Lane.ofNat? a.lane.toNat = some l → s.rights.lanes.get l = p) :
    acceptance s p .learn a.lane = .done := by
  refine acceptance_done (fun res hres => ?_) (by rw [hrun]; rfl)
  obtain ⟨l, hl, rfl⟩ := Option.map_eq_some_iff.mp hres
  exact hright l hl

/-- Settles O20. -/
theorem learnStartsALearn : Obligations.LearnStartsALearn := by
  refine ⟨fun s p a n hfree hlane hrun => ?_, fun s p a n l hfree hl hright hrun => ?_⟩
  · have hnone : Lane.ofNat? a.lane.toNat = none := Lane.ofNat?_eq_none hlane
    rw [(learn_isRequest p).taken n hfree (learn_done hrun (by simp [hnone])), takeLearn, hnone]
  · rw [← Lane.ofNat?_eq_getElem?] at hl
    have hdone : acceptance s p .learn a.lane = .done :=
      learn_done hrun (fun m hm => by rw [← hright, Option.some.inj (hl.symm.trans hm)])
    rw [(learn_isRequest p).taken n hfree hdone, takeLearn, hl]
    dsimp only
    refine ⟨fun hactive hblocks => ?_, fun hbad => ?_⟩
    · have hmin : min Config.maxLearn a.blocks.toNat = a.blocks.toNat ↔ a.blocks.toNat ≤ 64 := min_eq_right_iff
      rw [if_pos ⟨mem_activeLanes.mpr hactive, hblocks⟩]
      simp only [doneOrClamped_bne, hmin]
      rfl
    · rw [if_neg]
      rintro ⟨hactive, hblocks⟩
      obtain hoff | hzero := hbad
      · exact Bool.false_ne_true (hoff.symm.trans (mem_activeLanes.mp hactive))
      · exact hblocks hzero

/-! ## EVCLR and EVMASK, CSEEK (R70, R177) -/

theorem eventArgument_eq (m : BitVec 16) : eventArgument m = m.setWidth 11 := by
  refine BitVec.eq_of_toNat_eq ?_
  simp [eventArgument]

/-- A direction code that names a direction. -/
theorem Direction.ofCode_eq {c : Byte} (h : c.toNat ≤ 1) :
    Direction.ofCode c = some (if c = 0#8 then .forward else .backward) := by
  unfold Direction.ofCode
  split
  · rfl
  · next h0 => rw [if_pos (by bv_omega)]

theorem Direction.ofCode_eq_none {c : Byte} (h : 1 < c.toNat) : Direction.ofCode c = none := by
  unfold Direction.ofCode
  rw [if_neg (by bv_omega), if_neg (by bv_omega)]

theorem SeekMode.ofCode_eq_none {c : Byte} (h : 3 < c.toNat) : SeekMode.ofCode c = none := by
  unfold SeekMode.ofCode
  rw [if_neg (by bv_omega), if_neg (by bv_omega), if_neg (by bv_omega), if_neg (by bv_omega)]

/-- A CSEEK whose mode and direction are named, and that finds its target. -/
theorem takeCseek_found {s : State} {p : Port} {a : CseekArgs} {m : SeekMode} {d : Direction} {t : Option Nat}
    (hm : SeekMode.ofCode a.mode = some m) (hd : Direction.ofCode a.direction = some d)
    (ht : seekTarget s m a = some t) : takeCseek p a s = (s.setCursor p ⟨t, d⟩, .done) := by
  simp only [takeCseek, hm, hd, ht]

/-- Settles O31. -/
theorem cseekSetsThePortsCursor : Obligations.CseekSetsThePortsCursor := by
  intro s p a n hfree
  have hdone : acceptance s p .cseek 0#8 = .done := acceptance_done (by simp [requiredResource]) rfl
  have htaken := (cseek_isRequest p).taken (a := a) n hfree hdone
  intro refuses seeks
  have hseeks : ∀ {m : SeekMode} {t : Option Entry}, SeekMode.ofCode a.mode = some m → a.direction.toNat ≤ 1 →
      seekTarget s m a = some (t.map (fun x => x.number)) → seeks t := by
    intro m t hm hd ht
    rw [takeCseek_found hm (Direction.ofCode_eq hd) ht] at htaken
    exact htaken
  split
  · next hbad =>
    have hnone : takeCseek p a s = (s, .arg) := by
      obtain hmode | hdirection := hbad
      · rw [takeCseek, SeekMode.ofCode_eq_none hmode]
      · rw [takeCseek, Direction.ofCode_eq_none hdirection]
        cases SeekMode.ofCode a.mode <;> rfl
    rw [hnone] at htaken
    exact htaken
  · next hgood =>
    obtain ⟨hmode, hdirection⟩ : a.mode.toNat ≤ 3 ∧ a.direction.toNat ≤ 1 := by omega
    split
    · next h0 => exact hseeks (m := .first) (by rw [h0]; rfl) hdirection rfl
    · split
      · next h1 => exact hseeks (m := .last) (by rw [h1]; rfl) hdirection rfl
      · split
        · next h2 =>
          have hm : SeekMode.ofCode a.mode = some .number := by rw [h2]; rfl
          have hfind : seekTarget s .number a =
              (s.catalogue.entries.find? (fun e => e.number == a.number.toNat)).map (fun e => some e.number) := rfl
          split
          · next e he => exact hseeks hm hdirection (by rw [hfind, he]; rfl)
          · next he =>
            have hnone : takeCseek p a s = (s, .noent) := by
              simp only [takeCseek, hm, Direction.ofCode_eq hdirection, hfind, he, Option.map_none]
            rw [hnone] at htaken
            exact htaken
        · next h0 h1 h2 =>
          have hm : SeekMode.ofCode a.mode = some .position := by
            unfold SeekMode.ofCode
            rw [if_neg h0, if_neg h1, if_neg h2, if_pos (by bv_omega)]
          exact hseeks hm hdirection rfl

end Sys2Proof.Machine
end

section
/-! Stale requests in closed form, and SPLICE and CDEC refused and taken (O17, O18, O22, O23). -/

namespace Sys2Proof.Machine

/-! ## The ports after a frame taken at frame end -/

theorem frameEnded_events (u : State) (p : Port) (r : Result) (d : List Nibble) (x : Port) :
    ((settle (u.frameEnded p r d)).ports.get x).events = (u.ports.get x).events := by
  rw [settle_port]
  by_cases hx : x = p
  · rw [hx, State.frameEnded_port_self]
    rfl
  · rw [State.frameEnded_port_other _ _ _ hx]

theorem frameEnded_mask (u : State) (p : Port) (r : Result) (d : List Nibble) (x : Port) :
    ((settle (u.frameEnded p r d)).ports.get x).mask = (u.ports.get x).mask := by
  rw [settle_port]
  by_cases hx : x = p
  · rw [hx, State.frameEnded_port_self]
    rfl
  · rw [State.frameEnded_port_other _ _ _ hx]

theorem frameEnded_lastResult (u : State) (p : Port) (r : Result) (d : List Nibble) :
    ((settle (u.frameEnded p r d)).ports.get p).lastResult = r := by
  rw [settle_port, State.frameEnded_port_self]
  rfl

theorem frameEnded_quiet (u : State) {p x : Port} (r : Result) (d : List Nibble) (hx : x ≠ p) :
    ((settle (u.frameEnded p r d)).ports.get x).quiet = (u.ports.get x).quiet := by
  rw [settle_port, State.frameEnded_port_other _ _ _ hx]
  rfl

theorem raise_quiet (e : Event) (s : State) (x : Port) : ((raise e s).ports.get x).quiet = (s.ports.get x).quiet := by
  rw [raise_port]
  rfl

/-! ## Stale requests (R45) -/

/-- Whether a stale request from block k for each of some lanes takes effect on a lane. -/
def takesStale (s : State) (lanes : List Lane) (k : Nat) (l : Lane) : Bool :=
  decide (l ∈ lanes) && ((blockNumbered s k).bind (fun b => b.lanes.get l)).any (fun r => r.render != .pending)

/-- A block with the records of some lanes staled where it is numbered k or higher. -/
def Block.staledFrom (takes : Lane → Bool) (k : Nat) (c : Block) : Block :=
  if k ≤ c.number then { c with lanes := c.lanes.mapIdx (fun l r => if takes l = true then r.map LaneRecord.stale else r) }
  else c

theorem LaneRecord.stale_eq (r : LaneRecord) :
    r.stale = if r.render = .done then { r with render := .stale }
      else if r.render = .working then { r with dirty := true } else r := by
  unfold LaneRecord.stale
  cases h : r.render <;> simp

theorem LaneRecord.stale_pending (r : LaneRecord) : r.stale.render = .pending ↔ r.render = .pending := by
  unfold LaneRecord.stale
  cases h : r.render <;> simp [h]

theorem LaneRecord.stale_stale (r : LaneRecord) : r.stale.stale = r.stale := by
  unfold LaneRecord.stale
  cases h : r.render <;> simp [h]

theorem Block.staledFrom_number (takes : Lane → Bool) (k : Nat) (c : Block) : (c.staledFrom takes k).number = c.number := by
  unfold Block.staledFrom
  split <;> rfl

theorem Block.staledFrom_lane (takes : Lane → Bool) (k : Nat) (c : Block) (l : Lane) :
    (c.staledFrom takes k).lanes.get l =
      if k ≤ c.number ∧ takes l = true then (c.lanes.get l).map LaneRecord.stale else c.lanes.get l := by
  unfold Block.staledFrom
  by_cases hk : k ≤ c.number <;> simp [hk]

/-- A change of the blocks that keeps their numbers keeps what number names a block. -/
theorem blockNumbered_map {s t : State} {f : Block → Block} (hblocks : t.window.blocks = s.window.blocks.map f)
    (hf : ∀ b, (f b).number = b.number) (k : Nat) : blockNumbered t k = (blockNumbered s k).map f := by
  unfold blockNumbered
  rw [hblocks, List.find?_map]
  simp only [Function.comp_def, hf]

/-- The window that stale requests leave, in terms of the model's own change of a record. -/
theorem staledWindow_eq (s : State) (lanes : List Lane) (k : Nat) :
    staledWindow s lanes k =
      { s.window with blocks := s.window.blocks.map (Block.staledFrom (takesStale s lanes k) k) } := by
  have hfun : (fun r : LaneRecord => if r.render = .done then { r with render := .stale }
      else if r.render = .working then { r with dirty := true } else r) = LaneRecord.stale :=
    funext (fun r => r.stale_eq.symm)
  unfold staledWindow
  dsimp only
  rw [hfun]
  congr 2
  funext c
  unfold Block.staledFrom takesStale
  simp only [Bool.and_eq_true, decide_eq_true_eq]

theorem staledWindow_congr {s t : State} (h : t.window = s.window) (lanes : List Lane) (k : Nat) :
    staledWindow t lanes k = staledWindow s lanes k := by
  unfold staledWindow blockNumbered
  rw [h]

theorem Block.mapRecord_eq_staledFrom {takes : Lane → Bool} {l : Lane} (h : ∀ m, takes m = decide (m = l)) (k : Nat)
    (c : Block) : (if k ≤ c.number then c.mapRecord l LaneRecord.stale else c) = c.staledFrom takes k := by
  unfold Block.staledFrom
  split
  · refine congrArg (fun x => ({ c with lanes := x } : Block)) (PerLane.ext_get (fun m => ?_))
    rw [PerLane.get_set, PerLane.get_mapIdx, h]
    by_cases hm : m = l <;> simp [hm]
  · rfl

theorem Block.staledFrom_none {takes : Lane → Bool} (h : ∀ m, takes m = false) (k : Nat) (c : Block) :
    c.staledFrom takes k = c := by
  unfold Block.staledFrom
  split
  · refine congrArg (fun x => ({ c with lanes := x } : Block)) (PerLane.ext_get (fun m => ?_))
    rw [PerLane.get_mapIdx, h]
    rfl
  · rfl

/-- One stale request. -/
theorem staleRequest_eq (l : Lane) (k : Nat) (s : State) :
    staleRequest l k s = s.mapBlocks (Block.staledFrom (takesStale s [l] k) k) := by
  have htakes : ∀ m, takesStale s [l] k m = (decide (m = l) &&
      ((blockNumbered s k).bind (fun b => b.lanes.get l)).any (fun r => r.render != .pending)) := by
    intro m
    by_cases hm : m = l
    · simp [takesStale, hm]
    · simp [takesStale, hm]
  have hnone : ((blockNumbered s k).bind (fun b => b.lanes.get l)).any (fun r => r.render != .pending) = false →
      s = s.mapBlocks (Block.staledFrom (takesStale s [l] k) k) := by
    intro h
    have hid : (Block.staledFrom (takesStale s [l] k) k) = id :=
      funext (fun c => Block.staledFrom_none (fun m => by rw [htakes, h, Bool.and_false]) k c)
    rw [hid, State.mapBlocks, List.map_id]
    rfl
  have hrender : (blockNumbered s k).bind (fun b => b.renderOf l) =
      ((blockNumbered s k).bind (fun b => b.lanes.get l)).map (fun r => r.render) := by
    cases blockNumbered s k <;> rfl
  unfold staleRequest
  rw [hrender]
  cases hrec : (blockNumbered s k).bind (fun b => b.lanes.get l) with
  | none => exact hnone (by rw [hrec]; rfl)
  | some r =>
    rw [Option.map_some]
    by_cases hp : r.render = .pending
    · rw [hp]
      exact hnone (by rw [hrec]; simp [hp])
    · have hany : ∀ m, takesStale s [l] k m = decide (m = l) := by
        intro m
        rw [htakes, hrec]
        simp [hp]
      split
      · next h => cases h
      · next h => exact absurd (Option.some.inj h) hp
      · exact congrArg s.mapBlocks (funext (Block.mapRecord_eq_staledFrom hany k))

/-- A stale request leaves open what another takes effect on: PENDING records stay the PENDING ones. -/
theorem takesStale_mapBlocks (s : State) (takes : Lane → Bool) (lanes : List Lane) (j k : Nat) (l : Lane) :
    takesStale (s.mapBlocks (Block.staledFrom takes j)) lanes k l = takesStale s lanes k l := by
  unfold takesStale
  rw [blockNumbered_map (s := s) rfl (Block.staledFrom_number takes j)]
  congr 1
  cases blockNumbered s k with
  | none => rfl
  | some b =>
    simp only [Option.map_some, Option.bind_some, Block.staledFrom_lane]
    split
    · cases b.lanes.get l with
      | none => rfl
      | some r => simp [bne, LaneRecord.stale_pending]
    · rfl

theorem Block.staledFrom_staledFrom (x y z : Lane → Bool) (h : ∀ l, z l = (x l || y l)) (k : Nat) (c : Block) :
    (c.staledFrom x k).staledFrom y k = c.staledFrom z k := by
  unfold Block.staledFrom
  by_cases hk : k ≤ c.number
  · simp only [if_pos hk]
    refine congrArg (fun lanes => ({ c with lanes := lanes } : Block)) (PerLane.ext_get (fun l => ?_))
    rw [PerLane.get_mapIdx, PerLane.get_mapIdx, PerLane.get_mapIdx, h]
    cases x l <;> cases y l <;> simp [Function.comp_def, LaneRecord.stale_stale]
  · simp only [if_neg hk]

/-- Stale requests for several lanes, as one change (R45). -/
theorem staleRequests_eq (lanes : List Lane) (k : Nat) (s : State) :
    staleRequests lanes k s = { s with window := staledWindow s lanes k } := by
  rw [staledWindow_eq]
  change _ = s.mapBlocks (Block.staledFrom (takesStale s lanes k) k)
  induction lanes generalizing s with
  | nil =>
    have hid : (Block.staledFrom (takesStale s [] k) k) = id :=
      funext (fun c => Block.staledFrom_none (fun m => rfl) k c)
    rw [hid, State.mapBlocks, List.map_id]
    rfl
  | cons l lanes ih =>
    have hfold : staleRequests (l :: lanes) k s = staleRequests lanes k (staleRequest l k s) := rfl
    rw [hfold, ih, staleRequest_eq]
    have htakes : takesStale (s.mapBlocks (Block.staledFrom (takesStale s [l] k) k)) lanes k = takesStale s lanes k :=
      funext (takesStale_mapBlocks s _ lanes k k)
    rw [htakes]
    refine congrArg s.setBlocks ?_
    change (s.window.blocks.map _).map _ = _
    rw [List.map_map]
    refine List.map_congr_left (fun c _ => Block.staledFrom_staledFrom _ _ _ (fun m => ?_) k c)
    simp [takesStale, Bool.and_or_distrib_right]

/-! ## Splice marks (R62, R159) -/

theorem find?_rising {bs : List Block} (h : bs.Pairwise (fun b c => b.number < c.number)) {P : Block → Bool} {b : Block} :
    bs.find? P = some b ↔ b ∈ bs ∧ P b = true ∧ ∀ c ∈ bs, c.number < b.number → P c = false := by
  induction bs with
  | nil => simp
  | cons a bs ih =>
    obtain ⟨ha, hrest⟩ := List.pairwise_cons.mp h
    rw [List.find?_cons]
    cases hP : P a with
    | true =>
      simp only [Option.some.injEq, List.mem_cons, forall_eq_or_imp]
      constructor
      · rintro rfl
        exact ⟨.inl rfl, hP, fun hlt => absurd hlt (Nat.lt_irrefl _), fun c hc hlt => absurd (ha c hc) (Nat.lt_asymm hlt)⟩
      · rintro ⟨rfl | hb, -, hlow, -⟩
        · rfl
        · exact absurd (hlow (ha b hb)) (by simp [hP])
    | false =>
      rw [ih hrest]
      simp only [List.mem_cons, forall_eq_or_imp]
      constructor
      · rintro ⟨hb, hPb, hlow⟩
        exact ⟨.inr hb, hPb, fun _ => hP, hlow⟩
      · rintro ⟨rfl | hb, hPb, -, hlow⟩
        · rw [hP] at hPb
          cases hPb
        · exact ⟨hb, hPb, hlow⟩

theorem getLast?_rising {s : State} (h : WindowLegal s) {b : Block} :
    s.window.blocks.getLast? = some b ↔ Newest s b := by
  constructor
  · intro hb
    obtain ⟨older, hsplit⟩ := List.getLast?_eq_some_iff.mp hb
    have hrising := h.rising
    rw [hsplit, List.pairwise_append] at hrising
    obtain ⟨-, -, hlow⟩ := hrising
    refine ⟨hsplit ▸ List.mem_append_right _ (List.mem_singleton_self b), fun c hc => ?_⟩
    rw [hsplit, List.mem_append, List.mem_singleton] at hc
    obtain hc | rfl := hc
    · exact Nat.le_of_lt (hlow c hc b (List.mem_singleton_self b))
    · exact Nat.le_refl _
  · rintro ⟨hb, hmax⟩
    obtain ⟨older, newer, hsplit⟩ := List.append_of_mem hb
    cases newer with
    | nil => rw [hsplit, List.getLast?_concat]
    | cons c newer =>
      have hrising := h.rising
      rw [hsplit, List.pairwise_append, List.pairwise_cons] at hrising
      obtain ⟨-, ⟨hlt, -⟩, -⟩ := hrising
      have hle := hmax c (by simp [hsplit])
      exact absurd (hlt c (List.mem_cons_self ..)) (Nat.not_lt.mpr hle)

theorem workingLive_iff {s : State} {l : Lane} {k : Nat} :
    workingLive s l k = true ↔ ∃ f, (s.engines.get l).work = .live k f := by
  unfold workingLive workOf
  cases (s.engines.get l).work <;> simp

theorem untouchedBlock_iff {s : State} {b : Block} : untouchedBlock s b = true ↔ NoRenderDone s b := by
  have hall : ∀ l : Lane, l ∈ Lane.all := by intro l; cases l <;> decide
  have hlane : ∀ l, (match b.renderOf l with
      | none => true
      | some .pending => true
      | some .working => workingLive s l b.number
      | some .done => false
      | some .stale => false) = true ↔ ∀ r, b.lanes.get l = some r →
        r.render = .pending ∨ (r.render = .working ∧ ∃ f, (s.engines.get l).work = .live b.number f) := by
    intro l
    unfold Block.renderOf
    cases b.lanes.get l with
    | none => simp
    | some r => cases h : r.render <;> simp [h, workingLive_iff]
  unfold untouchedBlock NoRenderDone
  rw [List.all_eq_true]
  exact ⟨fun h l => (hlane l).mp (h l (hall l)), fun h l _ => (hlane l).mpr (h l)⟩

theorem behindHorizon_iff {s : State} (h : WindowLegal s) {q : Position} :
    behindHorizon s q = true ↔ SpliceLate s q := by
  unfold behindHorizon spliceHorizon SpliceLate
  cases hfind : s.window.blocks.find? (untouchedBlock s) with
  | some b =>
    obtain ⟨hmem, hun, hlow⟩ := (find?_rising h.rising).mp hfind
    have hno := untouchedBlock_iff.mp hun
    dsimp only
    rw [decide_eq_true_iff]
    constructor
    · intro hlt
      refine .inl ⟨b, hmem, hno, fun c hc hcb hc' => ?_, hlt⟩
      rw [← untouchedBlock_iff, hlow c hc hcb] at hc'
      cases hc'
    · rintro (⟨c, hc, hnc, hlowc, hlt⟩ | ⟨hnone, -⟩)
      · have hcb : s.window.blocks.find? (untouchedBlock s) = some c :=
          (find?_rising h.rising).mpr ⟨hc, untouchedBlock_iff.mpr hnc, fun d hd hdc =>
            Bool.eq_false_iff.mpr (fun hu => hlowc d hd hdc (untouchedBlock_iff.mp hu))⟩
        obtain rfl : b = c := Option.some.inj (hfind.symm.trans hcb)
        exact hlt
      · exact absurd hno (hnone b hmem)
  | none =>
    have hnone : ∀ c ∈ s.window.blocks, ¬NoRenderDone s c := fun c hc hno =>
      absurd (untouchedBlock_iff.mpr hno) (by simpa using List.find?_eq_none.mp hfind c hc)
    have hlate : (∃ b ∈ s.window.blocks, NoRenderDone s b ∧ (∀ c ∈ s.window.blocks, c.number < b.number →
        ¬NoRenderDone s c) ∧ passOffset s q < passOffset s b.first) ↔ False :=
      iff_false_intro (fun ⟨b, hb, hno, _⟩ => hnone b hb hno)
    rw [hlate, false_or]
    cases hlast : s.window.blocks.getLast? with
    | none =>
      refine ⟨fun h => (nomatch h), fun ⟨_, b, hb, _⟩ => ?_⟩
      rw [(getLast?_rising h).mpr hb] at hlast
      cases hlast
    | some b =>
      rw [Option.map_some]
      dsimp only
      rw [decide_eq_true_iff]
      constructor
      · exact fun hlt => ⟨hnone, b, (getLast?_rising h).mp hlast, hlt⟩
      · rintro ⟨-, c, hc, hlt⟩
        obtain rfl : b = c := Option.some.inj (hlast.symm.trans ((getLast?_rising h).mpr hc))
        exact hlt

theorem beyondWindow_iff {s : State} (h : WindowLegal s) {q : Position} :
    beyondWindow s q = true ↔ SpliceBeyond s q := by
  have hsize : (Config.blockSize : Int) = 2048 := rfl
  unfold beyondWindow SpliceBeyond
  cases hlast : s.window.blocks.getLast? with
  | none => simp [List.getLast?_eq_none_iff.mp hlast]
  | some b =>
    have hne : s.window.blocks ≠ [] := fun he => by rw [he] at hlast; cases hlast
    simp only [decide_eq_true_eq, hne, false_or, hsize]
    constructor
    · exact fun hle => ⟨b, (getLast?_rising h).mp hlast, by omega⟩
    · rintro ⟨c, hc, hlt⟩
      obtain rfl : b = c := Option.some.inj (hlast.symm.trans ((getLast?_rising h).mpr hc))
      omega

theorem spliceConflicts_iff {s : State} {q : Position} : spliceConflicts s q = true ↔ SpliceClash s q := by
  unfold spliceConflicts SpliceClash
  simp only [List.any_eq_true, Bool.and_eq_true, Bool.or_eq_true, beq_iff_eq, entryOverlaps_iff, Entry.Meets, And.comm]

theorem splice_taken {s : State} {p : Port} {mark : Position} (n : Nat) (hfree : s.portFree p) (hright : s.rights.pass = p)
    (hrun : s.pass.state = .running) :
    exec (.splice p (.whole mark n)) s =
      .next (settle ((takeSplice mark s).1.frameEnded p (takeSplice mark s).2 (statusReply s p n))) :=
  (splice_isRequest p).taken n hfree
    (acceptance_done (by simpa [requiredResource, Rights.owner]) (by rw [hrun]; rfl))

/-- Settles O18: the four tests of `takeSplice` are the four refusals, in their order. -/
theorem spliceRefusedChangesNothing : Obligations.SpliceRefusedChangesNothing := by
  intro s p mark n hfree hright hrun hlegal start answers
  have hanswers : ∀ r, takeSplice mark s = (s, r) → answers r := by
    intro r hr
    have h := splice_taken (mark := mark) n hfree hright hrun
    rwa [hr] at h
  rw [← behindHorizon_iff hlegal, ← beyondWindow_iff hlegal, ← spliceConflicts_iff]
  have htake : takeSplice mark s = if behindHorizon s start then (s, .late)
      else if beyondWindow s start then (s, .arg)
      else if spliceConflicts s start then (s, .conflict)
      else if catalogueFull s then (s, .full)
      else (listSplice start s, .done) := rfl
  refine ⟨fun h1 => hanswers _ ?_, fun h1 h2 => hanswers _ ?_, fun h1 h2 h3 => hanswers _ ?_, fun h1 h2 h3 h4 => hanswers _ ?_⟩
  · rw [htake, if_pos h1]
  · rw [htake, if_neg h1, if_pos h2]
  · rw [htake, if_neg h1, if_neg h2, if_pos h3]
  · have hfull : catalogueFull s = true := decide_eq_true h4
    rw [htake, if_neg h1, if_neg h2, if_neg h3, if_pos hfull]

/-- An entry listed: the statement's terms of it (R56, R59, R63). -/
theorem entryAdded_of_listed {s t : State} (e : Entry) (hcat : t.catalogue = (listEntry e s).catalogue)
    (hev : ∀ x, (t.ports.get x).events = ((listEntry e s).ports.get x).events) : EntryAdded s t e := by
  refine ⟨hcat ▸ listEntry_perm e s, hcat ▸ listEntry_counter e s, hcat ▸ listEntry_cursors e s, fun x => ?_⟩
  have hcount : s.catalogue.entries.length + 1 = Config.catalogueHigh ↔ s.catalogue.entries.length = 1919 :=
    ⟨fun h => Nat.succ.inj h, fun h => congrArg Nat.succ h⟩
  rw [hev, listEntry_ports, apply_ite (fun ports : PerPort PortState => (ports.get x).events), raise_port]
  simp only [hcount]

/-- Settles O17. -/
theorem spliceListsItsSpan : Obligations.SpliceListsItsSpan := by
  intro s p mark n hfree hright hrun hlegal start hlate hbeyond hclash hroom
  rw [← behindHorizon_iff hlegal] at hlate
  rw [← beyondWindow_iff hlegal] at hbeyond
  rw [← spliceConflicts_iff] at hclash
  have hfull : catalogueFull s = false := decide_eq_false (Nat.not_le.mpr hroom)
  have htaken := splice_taken (mark := mark) n hfree hright hrun
  have hstart : spliceStart s mark = start := rfl
  have htake : takeSplice mark s = (listSplice start s, .done) := by
    simp only [takeSplice, hstart, hlate, hbeyond, hclash, hfull, if_false, Bool.false_eq_true]
  rw [htake] at htaken
  refine ⟨_, htaken, ?_⟩
  unfold listSplice
  rw [staleRequests_eq]
  dsimp only
  generalize he : ({ number := 0, kind := .splice, lane := none, start := start, span := some s.pass.spliceSpan, peak := none,
                     decision := some .repair, decidedBy := .default, reported := none, fixed := false } : Entry) = e
  obtain ⟨hpend, hpass, hscan, htrack, hwindow, heng, hrights⟩ := listEntry_frame e s
  refine ⟨entryAdded_of_listed e rfl (frameEnded_events _ p _ _), ?_, hpass, ?_, htrack, heng, hrights, hpend,
    frameEnded_lastResult _ p _ _, fun x hx => ?_⟩
  · exact staledWindow_congr hwindow _ _
  · have hready : readyOf (listEntry e s) = readyOf s := by rw [readyOf, readyOf, hpass, hscan]
    exact congrArg₂ (fun x b => ({ x with ready := b } : ScanInput)) hscan hready
  · rw [frameEnded_quiet _ _ _ hx]
    dsimp only
    rw [listEntry_ports]
    split
    · exact raise_quiet ..
    · rfl

/-! ## CDEC (R72, R73) -/

theorem cdec_taken {s : State} {p : Port} {a : CdecArgs} (n : Nat) (hfree : s.portFree p) (hright : s.rights.review = p)
    (hstate : s.pass.state = .running ∨ s.pass.state = .closing) :
    exec (.cdec p (.whole a n)) s =
      .next (settle ((takeCdec a s).1.frameEnded p (takeCdec a s).2 (statusReply s p n))) :=
  (cdec_isRequest p).taken n hfree
    (acceptance_done (by simpa [requiredResource, Rights.owner]) (by obtain h | h := hstate <;> rw [h] <;> rfl))

theorem Decision.ofCode_isSome {c : Byte} (h : c.toNat ∈ [1, 2, 3]) : ∃ d, Decision.ofCode c = some d := by
  have hc : c = 1#8 ∨ c = 2#8 ∨ c = 3#8 := by
    simp only [List.mem_cons, List.not_mem_nil, or_false] at h
    bv_omega
  obtain rfl | rfl | rfl := hc <;> exact ⟨_, rfl⟩

theorem Decision.ofCode_eq_none {c : Byte} (h : c.toNat ∉ [1, 2, 3]) : Decision.ofCode c = none := by
  simp only [List.mem_cons, List.not_mem_nil, or_false] at h
  unfold Decision.ofCode
  rw [if_neg (by bv_omega), if_neg (by bv_omega), if_neg (by bv_omega)]

theorem takeCdec_found {s : State} {a : CdecArgs} {d : Decision} {e : Entry} (hd : Decision.ofCode a.decision = some d)
    (he : entryNumbered s a.number.toNat = some e) :
    takeCdec a s =
      if e.fixed = true then (s, .late) else if decisionForced s e d = true then (s, .forced)
      else (setDecision e d s, .done) := by
  simp only [takeCdec, hd, he]

/-- A position of a span that is void or not yet written denies the span its freedom of voids (R72). -/
theorem spanFreeOfVoids_eq_false {s : State} {q : Position} {n i : Nat} {l : Lane} (hi : i < n) (hl : l ∈ activeLanes s)
    (hv : originalAt s l (q + BitVec.ofNat 40 i) = none ∨
      originalAt s l (q + BitVec.ofNat 40 i) = some Config.voidValue) : spanFreeOfVoids s q n = false := by
  unfold spanFreeOfVoids
  rw [Bool.eq_false_iff]
  intro hall
  have h := List.all_eq_true.mp (List.all_eq_true.mp hall i (List.mem_range.mpr hi)) l hl
  obtain hnone | hvoid := hv
  · rw [hnone] at h
    cases h
  · rw [hvoid] at h
    simp at h

/-- The entries that may not hold the decision PASS (R72), and a SLIP, which may hold none. -/
theorem decisionForced_of {s : State} {e : Entry} {d : Decision} {c : Byte} (hd : Decision.ofCode c = some d)
    (h : e.kind = .slip ∨ (c = 2#8 ∧ (e.kind = .void ∨ e.kind = .gap)) ∨
      (c = 2#8 ∧ e.kind = .splice ∧ ∃ i l, i < e.span.getD 0 ∧ l ∈ activeLanes s ∧
        (originalAt s l (e.start + BitVec.ofNat 40 i) = none ∨
          originalAt s l (e.start + BitVec.ofNat 40 i) = some Config.voidValue))) :
    decisionForced s e d = true := by
  unfold decisionForced
  obtain hslip | ⟨rfl, hvoid | hgap⟩ | ⟨rfl, hsplice, i, l, hi, hl, hv⟩ := h
  · rw [hslip]
  · cases hd
    rw [hvoid]
  · cases hd
    rw [hgap]
  · cases hd
    rw [hsplice]
    exact Bool.not_eq_true' _ |>.mpr (spanFreeOfVoids_eq_false hi hl hv)

/-- Settles O23. -/
theorem cdecRefusedChangesNothing : Obligations.CdecRefusedChangesNothing := by
  intro s p a n hfree hright hstate answers
  have hanswers : ∀ r, takeCdec a s = (s, r) → answers r := by
    intro r hr
    have h := cdec_taken (a := a) n hfree hright hstate
    rwa [hr] at h
  refine ⟨fun hcode => hanswers _ ?_, fun hcode hnone => hanswers _ ?_, fun e hcode he =>
    ⟨fun hfixed => hanswers _ ?_, fun hfixed hforced => hanswers _ ?_⟩⟩
  · simp only [takeCdec, Decision.ofCode_eq_none hcode]
  · obtain ⟨d, hd⟩ := Decision.ofCode_isSome hcode
    have he : entryNumbered s a.number.toNat = none := List.find?_eq_none.mpr (by simpa using hnone)
    simp only [takeCdec, hd, he]
  · obtain ⟨d, hd⟩ := Decision.ofCode_isSome hcode
    rw [takeCdec_found hd he, if_pos hfixed]
  · obtain ⟨d, hd⟩ := Decision.ofCode_isSome hcode
    rw [takeCdec_found hd he, if_neg (by simp [hfixed]), if_pos (decisionForced_of hd hforced)]

/-- The window after a decision is set: the stale requests of a change, and nothing else (R73). -/
theorem setDecision_eq (e : Entry) (d : Decision) (s : State) :
    setDecision e d s =
      { s with
        catalogue :=
          { s.catalogue with
            entries := s.catalogue.entries.map (fun x =>
              if x.number = e.number then { x with decision := some d, decidedBy := .review } else x) }
        window :=
          if e.decision = some d then s.window
          else staledWindow s (affectedLanes s e) (blockNumberOf s e.start).toNat } := by
  unfold setDecision
  dsimp only
  split
  · rfl
  · rw [staleRequests_eq, staledWindow_congr (s := s) rfl]
    rfl

theorem staledWindow_of_pending {s : State} {l : Lane} {k : Nat} {b : Block} {r : LaneRecord}
    (hb : blockNumbered s k = some b) (hr : b.lanes.get l = some r) (hp : r.render = .pending) :
    staledWindow s [l] k = s.window := by
  have h := staleRequests_eq [l] k s
  have hstale : staleRequests [l] k s = s := by
    change staleRequest l k s = s
    rw [staleRequest, hb, Option.bind_some, Block.renderOf, hr, Option.map_some, hp]
  rw [hstale] at h
  exact (congrArg State.window h).symm

theorem staledWindow_of_rendered {s : State} {l : Lane} {k : Nat} {b : Block} {r : LaneRecord}
    (hb : blockNumbered s k = some b) (hr : b.lanes.get l = some r) (hp : r.render ≠ .pending) :
    staledWindow s [l] k =
      { s.window with
        blocks := s.window.blocks.map (fun c =>
          if k ≤ c.number then
            c.mapRecord l (fun x =>
              if x.render = .done then { x with render := .stale }
              else if x.render = .working then { x with dirty := true } else x)
          else c) } := by
  have hfun : (fun x : LaneRecord => if x.render = .done then { x with render := .stale }
      else if x.render = .working then { x with dirty := true } else x) = LaneRecord.stale :=
    funext (fun x => x.stale_eq.symm)
  have htakes : ∀ m, takesStale s [l] k m = decide (m = l) := by
    intro m
    by_cases hm : m = l
    · simp [takesStale, hb, hm, hr, hp]
    · simp [takesStale, hm]
  rw [staledWindow_eq, hfun]
  exact congrArg (fun blocks => ({ s.window with blocks := blocks } : Window))
    (List.map_congr_left (fun c _ => (Block.mapRecord_eq_staledFrom htakes k c).symm))

/-- Settles O22. -/
theorem cdecChangesTheDecision : Obligations.CdecChangesTheDecision := by
  intro s p a n d e hfree hright hstate hcode he hfixed hforced k
  have hd : Decision.ofCode a.decision = some d := by
    rw [hcode]
    cases d <;> rfl
  have htaken := cdec_taken (a := a) n hfree hright hstate
  rw [takeCdec_found hd he, if_neg (by simp [hfixed]), if_neg (by simp [hforced])] at htaken
  have hwindow : (setDecision e d s).window =
      if e.decision = some d then s.window else staledWindow s (affectedLanes s e) k := by
    rw [setDecision_eq]
  have hlane : ∀ l, e.decision ≠ some d → e.lane = some l → (setDecision e d s).window = staledWindow s [l] k := by
    intro l hne hl
    rw [hwindow, if_neg hne, affectedLanes, hl]
  refine ⟨_, htaken, ?cat, ?same, ?everyLane, hlane, ?pendingRecord, ?renderedRecord, ?control, ?scan, ?tracker, ?engines,
    ?rights, ?queue, frameEnded_lastResult _ p _ _, fun x => ⟨?events, ?mask⟩, fun x hx => ?quiet⟩
  case same => exact fun hsame => hwindow.trans (if_pos hsame)
  case everyLane =>
    intro hne hnone
    refine hwindow.trans ((if_neg hne).trans ?_)
    rw [affectedLanes, hnone]
  case pendingRecord =>
    exact fun l b r hne hl hb hr hp => (hlane l hne hl).trans (staledWindow_of_pending hb hr hp)
  case renderedRecord =>
    exact fun l b r hne hl hb hr hp => (hlane l hne hl).trans (staledWindow_of_rendered hb hr hp)
  case events =>
    rw [frameEnded_events, setDecision_eq]
  case mask =>
    rw [frameEnded_mask, setDecision_eq]
  case quiet =>
    rw [frameEnded_quiet _ _ _ hx, setDecision_eq]
  all_goals
    rw [setDecision_eq]
    rfl

end Sys2Proof.Machine
end

section
/-! The release rule by its three conditions (O13). -/

namespace Sys2Proof.Machine

/-! ## What the rule passes over -/

theorem allDone_iff {b : Block} : b.allDone = true ↔ ∀ l r, b.lanes.get l = some r → r.render = .done := by
  have hall : ∀ l : Lane, l ∈ Lane.all := by intro l; cases l <;> decide
  unfold Block.allDone
  rw [List.all_eq_true]
  refine ⟨fun h l r hr => ?_, fun h l _ => ?_⟩
  · have hl := h l (hall l)
    rw [hr] at hl
    exact eq_of_beq hl
  · split
    · rfl
    · next r hr => exact beq_iff_eq.mpr (h l r hr)

/-- The hold of a block is waived: by a block with every record done far enough above, by the mark, or in CLOSING (R46). -/
def HoldWaived (s : State) (k : Nat) : Prop :=
  (∃ d ∈ s.window.blocks, (∀ l r, d.lanes.get l = some r → r.render = .done) ∧ k + s.window.reviewHold ≤ d.number) ∨
    (∃ m, s.window.releaseMark = some m ∧ k ≤ m) ∨ s.pass.state = .closing

theorem newestDone_le_iff {s : State} {k : Nat} :
    (∃ n, newestDone s = some n ∧ k ≤ n) ↔ ∃ d ∈ s.window.blocks, d.allDone = true ∧ k ≤ d.number := by
  unfold newestDone
  constructor
  · rintro ⟨n, hn, hle⟩
    obtain ⟨d, hd, rfl⟩ := List.mem_map.mp (List.max?_mem hn)
    obtain ⟨hd, hdone⟩ := List.mem_filter.mp hd
    exact ⟨d, hd, hdone, hle⟩
  · rintro ⟨d, hd, hdone, hle⟩
    have hmem : d.number ∈ (s.window.blocks.filter (fun b => b.allDone)).map (fun b => b.number) :=
      List.mem_map.mpr ⟨d, List.mem_filter.mpr ⟨hd, hdone⟩, rfl⟩
    obtain ⟨n, hn⟩ := Option.isSome_iff_exists.mp (List.isSome_max?_of_mem hmem)
    exact ⟨n, hn, hle.trans (List.le_max?_get_of_mem hmem |>.trans_eq (by simp [hn]))⟩

theorem holdWaived_iff {s : State} {k : Nat} : holdWaived s k = true ↔ HoldWaived s k := by
  have hdone : (∃ d ∈ s.window.blocks, (∀ l r, d.lanes.get l = some r → r.render = .done) ∧
      k + s.window.reviewHold ≤ d.number) ↔ ∃ n, newestDone s = some n ∧ k + s.window.reviewHold ≤ n := by
    simp only [newestDone_le_iff, allDone_iff]
  unfold holdWaived HoldWaived
  rw [hdone, Bool.or_eq_true, Bool.or_eq_true, or_assoc, beq_iff_eq]
  refine or_congr ?_ (or_congr ?_ Iff.rfl)
  · cases newestDone s <;> simp
  · cases s.window.releaseMark <;> simp

/-- The rule passes a block: it is RELEASED, or HELD with every record DONE and its hold waived (R46). -/
def Passes (s : State) (b : Block) : Prop :=
  b.state = .released ∨ (b.state = .held ∧ b.allDone = true ∧ holdWaived s b.number = true)

/-- The rule releases the HELD blocks of the longest run of blocks, from the oldest on, that it passes. -/
theorem releasable_split (s : State) (bs : List Block) :
    ∃ passed rest, bs = passed ++ rest ∧ (∀ b ∈ passed, Passes s b) ∧ (∀ b ∈ rest.head?, ¬Passes s b) ∧
      releasable s bs = (passed.filter (fun b => b.state == .held)).map (fun b => b.number) := by
  induction bs with
  | nil => exact ⟨[], [], rfl, by simp, by simp, rfl⟩
  | cons b bs ih =>
    obtain ⟨passed, rest, hsplit, hpassed, hrest, hks⟩ := ih
    have hstop : ¬Passes s b → releasable s (b :: bs) = [] → ∃ passed rest, b :: bs = passed ++ rest ∧
        (∀ b ∈ passed, Passes s b) ∧ (∀ b ∈ rest.head?, ¬Passes s b) ∧
        releasable s (b :: bs) = (passed.filter (fun b => b.state == .held)).map (fun b => b.number) := fun hn hr =>
      ⟨[], b :: bs, rfl, by simp, by simpa using hn, hr⟩
    have hgo : Passes s b → releasable s (b :: bs) =
          ((b :: passed).filter (fun b => b.state == .held)).map (fun b => b.number) →
        ∃ passed rest, b :: bs = passed ++ rest ∧ (∀ b ∈ passed, Passes s b) ∧ (∀ b ∈ rest.head?, ¬Passes s b) ∧
          releasable s (b :: bs) = (passed.filter (fun b => b.state == .held)).map (fun b => b.number) := fun hb hr =>
      ⟨b :: passed, rest, by rw [hsplit, List.cons_append], List.forall_mem_cons.mpr ⟨hb, hpassed⟩, hrest, hr⟩
    cases hst : b.state with
    | released => exact hgo (.inl hst) (by simp [releasable, hst, hks])
    | held =>
      by_cases hb : (b.allDone && holdWaived s b.number) = true
      · exact hgo (.inr ⟨hst, Bool.and_eq_true_iff.mp hb⟩) (by simp [releasable, hst, hks, hb])
      · refine hstop ?_ (by simp [releasable, hst, hb])
        rintro (h | ⟨-, h⟩)
        · rw [hst] at h
          cases h
        · exact hb (Bool.and_eq_true_iff.mpr h)
    | filling => exact hstop (by simp [Passes, hst]) (by simp [releasable, hst])
    | full => exact hstop (by simp [Passes, hst]) (by simp [releasable, hst])

/-- What the rule releases, and what it leaves, of a window in its legal form. -/
structure Releases (s : State) (passed rest : List Block) : Prop where
  blocks  : s.window.blocks = passed ++ rest
  passes  : ∀ b ∈ passed, Passes s b
  stops   : ∀ b ∈ rest.head?, ¬Passes s b
  numbers : releasable s s.window.blocks = (passed.filter (fun b => b.state == .held)).map (fun b => b.number)

theorem exists_releases (s : State) : ∃ passed rest, Releases s passed rest := by
  obtain ⟨passed, rest, hb, hp, hr, hk⟩ := releasable_split s s.window.blocks
  exact ⟨passed, rest, hb, hp, hr, hk⟩

section
variable {s : State} {passed rest : List Block} (hlegal : WindowLegal s) (h : Releases s passed rest)
include hlegal h

theorem Releases.lower {b c : Block} (hb : b ∈ passed) (hc : c ∈ s.window.blocks) (hlt : c.number < b.number) :
    c ∈ passed := by
  have hrising := hlegal.rising
  rw [h.blocks, List.pairwise_append] at hrising
  obtain ⟨-, -, hlow⟩ := hrising
  rw [h.blocks, List.mem_append] at hc
  exact hc.resolve_right (fun hc => Nat.lt_asymm hlt (hlow b hb c hc))

/-- The lowest block that the rule does not pass, below every other that it does not reach. -/
theorem Releases.first_stop {c : Block} (hc : c ∈ rest) : ∃ d ∈ rest, ¬Passes s d ∧ (d = c ∨ d.number < c.number) := by
  have hrising := hlegal.rising
  rw [h.blocks, List.pairwise_append] at hrising
  obtain ⟨-, hrising, -⟩ := hrising
  obtain ⟨d, rest', rfl⟩ := List.exists_cons_of_ne_nil (List.ne_nil_of_mem hc)
  refine ⟨d, List.mem_cons_self .., h.stops d rfl, ?_⟩
  obtain hcd | hc := List.mem_cons.mp hc
  · exact .inl hcd.symm
  · exact .inr ((List.pairwise_cons.mp hrising).1 c hc)

theorem Releases.mem_numbers {b : Block} (hb : b ∈ s.window.blocks) :
    b.number ∈ releasable s s.window.blocks ↔ b ∈ passed ∧ b.state = .held := by
  rw [h.numbers]
  simp only [List.mem_map, List.mem_filter, beq_iff_eq]
  constructor
  · rintro ⟨c, ⟨hc, hst⟩, hn⟩
    have hcb : c = b := hlegal.eq_of_number (h.blocks ▸ List.mem_append_left _ hc) hb hn
    exact hcb ▸ ⟨hc, hst⟩
  · exact fun hb => ⟨b, hb, rfl⟩

/-- A block is RELEASED after the rule exactly where the rule passes it. -/
theorem Releases.released_iff {b : Block} (hb : b ∈ s.window.blocks) :
    (b.releasedIn (releasable s s.window.blocks)).state = .released ↔ b ∈ passed := by
  rw [Block.releasedIn_state]
  simp only [h.mem_numbers hlegal hb]
  constructor
  · intro hst
    split at hst
    · next hp => exact hp.1.1
    · refine (List.mem_append.mp (h.blocks ▸ hb)).resolve_right (fun hrest => ?_)
      obtain ⟨d, hd, hstop, rfl | hlt⟩ := h.first_stop hlegal hrest
      · exact hstop (.inl hst)
      · refine hstop (.inl ?_)
        have hmem : d ∈ s.window.blocks := h.blocks ▸ List.mem_append_right _ hd
        have hrising := hlegal.rising
        obtain ⟨-, -, -, hstates, -⟩ := hlegal
        obtain ⟨older, newer, hsplit⟩ := List.append_of_mem hb
        have hold : d ∈ older := by
          rw [hsplit, List.mem_append, List.mem_cons] at hmem
          rw [hsplit, List.pairwise_append, List.pairwise_cons] at hrising
          obtain ⟨-, ⟨hnewer, -⟩, -⟩ := hrising
          obtain hmem | rfl | hmem := hmem
          · exact hmem
          · exact absurd hlt (Nat.lt_irrefl _)
          · exact absurd (hnewer d hmem) (Nat.lt_asymm hlt)
        rw [hsplit, List.pairwise_append] at hstates
        obtain ⟨-, -, hstates⟩ := hstates
        exact (hstates d hold b (List.mem_cons_self ..)).2 hst
  · intro hp
    split
    · rfl
    · next hn =>
      obtain hst | ⟨hst, -⟩ := h.passes b hp
      · exact hst
      · exact absurd ⟨⟨hp, hst⟩, hst⟩ hn

end

/-! ## The part after the rule -/

theorem Block.releasedIn_nil (b : Block) : b.releasedIn [] = b := by simp [Block.releasedIn]

theorem Entry.fixedIn_nil (s : State) (e : Entry) : e.fixedIn s [] = e := by simp [Entry.fixedIn]

/-- The rule where it releases a block: the release, and the end of the pass where every block is then RELEASED (R47). -/
theorem releaseRule_of_releases {s : State} (h : releasable s s.window.blocks ≠ []) :
    let u := releasedState (releasable s s.window.blocks) s
    releaseRule s =
      if s.pass.state = .closing ∧ s.pass.runOutEnded = true ∧ ∀ b ∈ u.window.blocks, b.state = .released then
        { u with pass := { s.pass with state := .ended } }
      else u := by
  obtain ⟨k, ks, hks⟩ := List.exists_cons_of_ne_nil h
  have hblocks : s.window.blocks ≠ [] := mem_releasable_blocks (hks ▸ List.mem_cons_self ..)
  rw [releaseRule_eq, if_neg h, reportReleased_of_blocks (fun hn => hblocks (List.map_eq_nil_iff.mp hn))]
  rfl

theorem releaseRule_blocks (s : State) :
    (releaseRule s).window.blocks = s.window.blocks.map (Block.releasedIn (releasable s s.window.blocks)) := by
  by_cases hks : releasable s s.window.blocks = []
  · rw [releaseRule_eq, if_pos hks, hks]
    exact (List.map_id'' Block.releasedIn_nil _).symm
  · rw [releaseRule_of_releases hks]
    split <;> rfl

theorem releaseRule_entries (s : State) :
    (releaseRule s).catalogue.entries = s.catalogue.entries.map (Entry.fixedIn s (releasable s s.window.blocks)) := by
  by_cases hks : releasable s s.window.blocks = []
  · rw [releaseRule_eq, if_pos hks, hks]
    exact (List.map_id'' (Entry.fixedIn_nil s) _).symm
  · rw [releaseRule_of_releases hks]
    split <;> rfl

theorem releaseRule_ports (s : State) :
    (releaseRule s).ports = if releasable s s.window.blocks = [] then s.ports else (raise .released s).ports := by
  by_cases hks : releasable s s.window.blocks = []
  · rw [releaseRule_eq, if_pos hks, if_pos hks]
  · rw [releaseRule_of_releases hks, if_neg hks]
    split <;> rfl

theorem releaseRule_quiet (s : State) : portsQuiet s (releaseRule s) := by
  intro x
  rw [releaseRule_ports]
  split
  · rfl
  · exact raise_quiet ..

theorem releaseRule_pass (s : State) :
    (releaseRule s).pass =
      if releasable s s.window.blocks ≠ [] ∧ s.pass.state = .closing ∧ s.pass.runOutEnded = true ∧
          ∀ b ∈ (releaseRule s).window.blocks, b.state = .released then
        { s.pass with state := .ended }
      else s.pass := by
  by_cases hks : releasable s s.window.blocks = []
  · rw [if_neg (fun h => h.1 hks), releaseRule_eq, if_pos hks]
  · have hcond : (∀ b ∈ (releaseRule s).window.blocks, b.state = .released) ↔
        ∀ b ∈ (releasedState (releasable s s.window.blocks) s).window.blocks, b.state = .released := by
      rw [releaseRule_blocks]
      rfl
    simp only [hcond, hks, ne_eq, not_false_eq_true, true_and]
    rw [releaseRule_of_releases hks]
    split <;> rfl

/-- The block with a number is released by the rule: HELD before it, RELEASED after it. -/
def Newly (s : State) (k : Int) : Prop :=
  (∃ b ∈ s.window.blocks, (b.number : Int) = k ∧ b.state = .held) ∧
    ∃ c ∈ (releaseRule s).window.blocks, (c.number : Int) = k ∧ c.state = .released

theorem newly_iff {s : State} (hlegal : WindowLegal s) {k : Int} :
    Newly s k ↔ ∃ j ∈ releasable s s.window.blocks, (j : Int) = k := by
  obtain ⟨passed, rest, h⟩ := exists_releases s
  unfold Newly
  rw [releaseRule_blocks]
  constructor
  · rintro ⟨⟨b, hb, hbk, hst⟩, c, hc, hck, hrel⟩
    obtain ⟨d, hd, rfl⟩ := List.mem_map.mp hc
    obtain ⟨-, hnumber, -⟩ := Block.releasedIn_frame (releasable s s.window.blocks) d
    rw [hnumber] at hck
    have hdb : d = b := hlegal.eq_of_number hd hb (by omega)
    subst hdb
    exact ⟨d.number, (h.mem_numbers hlegal hb).mpr ⟨(h.released_iff hlegal hb).mp hrel, hst⟩, hbk⟩
  · rintro ⟨j, hj, rfl⟩
    obtain ⟨b, hb, rfl, hst, -⟩ := mem_releasable hj
    obtain ⟨-, hnumber, -⟩ := Block.releasedIn_frame (releasable s s.window.blocks) b
    exact ⟨⟨b, hb, rfl, hst⟩, _, List.mem_map_of_mem hb, by rw [hnumber],
      by rw [Block.releasedIn_state, if_pos ⟨hj, hst⟩]⟩

theorem exists_newly_iff {s : State} (hlegal : WindowLegal s) : (∃ k, Newly s k) ↔ releasable s s.window.blocks ≠ [] := by
  simp only [newly_iff hlegal]
  constructor
  · rintro ⟨k, j, hj, -⟩
    exact List.ne_nil_of_mem hj
  · intro hne
    obtain ⟨j, ks, hks⟩ := List.exists_cons_of_ne_nil hne
    exact ⟨j, j, hks ▸ List.mem_cons_self .., rfl⟩

theorem Entry.fixedIn_fixed {s : State} (hlegal : WindowLegal s) (e : Entry) :
    (e.fixedIn s (releasable s s.window.blocks)).fixed = true ↔ e.fixed = true ∨ Newly s (blockNumberOf s e.start) := by
  have hany : (releasable s s.window.blocks).any (fun k => startsIn s k e) = true ↔
      ∃ j ∈ releasable s s.window.blocks, (j : Int) = blockNumberOf s e.start := by
    rw [List.any_eq_true]
    exact exists_congr (fun j => and_congr_right (fun _ => beq_iff_eq.trans eq_comm))
  rw [newly_iff hlegal, ← hany]
  exact Bool.or_eq_true_iff

/-- A RELEASED block after the rule: every lower one is too, and its three conditions held or it was RELEASED (R46). -/
theorem released_after {s : State} (hlegal : WindowLegal s) {b : Block} (hb : b ∈ (releaseRule s).window.blocks)
    (hrel : b.state = .released) :
    (∀ c ∈ (releaseRule s).window.blocks, c.number < b.number → c.state = .released) ∧
      ∃ c ∈ s.window.blocks, c.number = b.number ∧
        (c.state = .released ∨
          (c.state = .held ∧ (∀ l r, c.lanes.get l = some r → r.render = .done) ∧ HoldWaived s c.number)) := by
  obtain ⟨passed, rest, h⟩ := exists_releases s
  rw [releaseRule_blocks] at hb ⊢
  obtain ⟨d, hd, rfl⟩ := List.mem_map.mp hb
  have hdp : d ∈ passed := (h.released_iff hlegal hd).mp hrel
  have hnumber := fun x : Block => (Block.releasedIn_frame (releasable s s.window.blocks) x).2.1
  refine ⟨fun c hc hlt => ?_, d, hd, (hnumber d).symm, ?_⟩
  · obtain ⟨x, hx, rfl⟩ := List.mem_map.mp hc
    rw [hnumber, hnumber] at hlt
    exact (h.released_iff hlegal hx).mpr (h.lower hlegal hdp hx hlt)
  · obtain hst | ⟨hst, hdone, hwaived⟩ := h.passes d hdp
    · exact .inl hst
    · exact .inr ⟨hst, allDone_iff.mp hdone, holdWaived_iff.mp hwaived⟩

/-- A HELD block that meets the conditions is kept from release by a lower block that is not RELEASED (R46). -/
theorem held_after {s : State} (hlegal : WindowLegal s) {b : Block} (hb : b ∈ (releaseRule s).window.blocks)
    (hheld : b.state = .held) (hdone : ∀ l r, b.lanes.get l = some r → r.render = .done) (hwaived : HoldWaived s b.number) :
    ∃ c ∈ (releaseRule s).window.blocks, c.number < b.number ∧ c.state ≠ .released := by
  obtain ⟨passed, rest, h⟩ := exists_releases s
  rw [releaseRule_blocks] at hb ⊢
  obtain ⟨d, hd, rfl⟩ := List.mem_map.mp hb
  obtain ⟨-, hnumber, -, -, -, hlanes⟩ := Block.releasedIn_frame (releasable s s.window.blocks) d
  rw [hnumber] at hwaived ⊢
  rw [hlanes] at hdone
  have hdst : d.state = .held := by
    rw [Block.releasedIn_state] at hheld
    split at hheld
    · cases hheld
    · exact hheld
  have hnp : d ∉ passed := fun hp => by
    rw [(h.released_iff hlegal hd).mpr hp] at hheld
    cases hheld
  have hrest : d ∈ rest := (List.mem_append.mp (h.blocks ▸ hd)).resolve_left hnp
  obtain ⟨c, hc, hstop, rfl | hlt⟩ := h.first_stop hlegal hrest
  · exact absurd (.inr ⟨hdst, allDone_iff.mpr hdone, holdWaived_iff.mpr hwaived⟩) hstop
  · have hcs : c ∈ s.window.blocks := h.blocks ▸ List.mem_append_right _ hc
    obtain ⟨-, hcn, -⟩ := Block.releasedIn_frame (releasable s s.window.blocks) c
    refine ⟨_, List.mem_map_of_mem hcs, by rwa [hcn], fun hrel => ?_⟩
    exact hstop (h.passes c ((h.released_iff hlegal hcs).mp hrel))

/-- Settles O13. -/
theorem releaseRuleReleasesWhatItMay : Obligations.ReleaseRuleReleasesWhatItMay := by
  intro s hlegal waived
  obtain ⟨hpend, hscan, htrack, heng, hrights, hwindow, hcat⟩ := releaseRule_frame s
  refine ⟨fun b hb hrel => released_after hlegal hb hrel, fun b hb hheld hdone hw => held_after hlegal hb hheld hdone hw,
    hwindow, hscan, htrack, heng, hrights, hpend, ?counter, ?blocks, ?sameBlocks, ?nothing, ?raised, releaseRule_quiet s,
    ?cursors, ?sameEntries, ?fixed, ?ended, ?pass⟩
  case counter => rw [hcat]
  case blocks =>
    intro i b c hb hc
    rw [releaseRule_blocks, List.getElem?_map, hb, Option.map_some, Option.some.injEq] at hc
    subst hc
    unfold Block.releasedIn
    split
    · next h => exact .inr ⟨h.2, rfl⟩
    · exact .inl rfl
  case sameBlocks =>
    rw [releaseRule_blocks, List.map_map]
    refine List.map_congr_left (fun b _ => ?_)
    rw [Function.comp_apply, Block.releasedIn]
    split <;> rfl
  case nothing =>
    intro hnone
    rw [releaseRule_eq, if_pos]
    by_contra hne
    obtain ⟨k, hk⟩ := (exists_newly_iff hlegal).mpr hne
    exact hnone k hk
  case raised =>
    intro hsome x
    rw [releaseRule_ports, if_neg ((exists_newly_iff hlegal).mp hsome)]
    exact raise_sets ..
  case cursors => rw [hcat]
  case sameEntries =>
    rw [releaseRule_entries, List.map_map]
    rfl
  case fixed =>
    intro i e y he hy
    rw [releaseRule_entries, List.getElem?_map, he, Option.map_some, Option.some.injEq] at hy
    subst hy
    refine ⟨fun hk => (Entry.fixedIn_fixed hlegal e).mpr (.inr hk), fun hk => ?_⟩
    exact Bool.eq_iff_iff.mpr ((Entry.fixedIn_fixed hlegal e).trans (or_iff_left hk))
  case ended =>
    intro hsome hclosing hrunout hall
    rw [releaseRule_pass, if_pos ⟨(exists_newly_iff hlegal).mp hsome, hclosing, hrunout, hall⟩]
  case pass =>
    intro hn
    rw [releaseRule_pass, if_neg (fun h => hn h.2)]

end Sys2Proof.Machine
end

section
/-! CLOSE (O14): what it does to the learns, in closed form, after the release rule. -/

namespace Sys2Proof.Machine

/-! ## A learn at CLOSE (R130) -/

/-- The engine has an ACTIVE learn that counts no block and has counted a position: CLOSE stores its floor. -/
abbrev LaneEngine.Learns (e : LaneEngine) : Prop :=
  e.learn.state = .active ∧ e.learn.counted = none ∧ e.learn.count ≠ 0

/-- A lane engine at CLOSE. -/
def LaneEngine.learnClosed (e : LaneEngine) : LaneEngine :=
  { e with
    settings := if e.Learns then { e.settings with floor := min 8388607 (e.learn.sum / e.learn.count) } else e.settings
    learn :=
      if e.learn.state ≠ .active then e.learn
      else if e.learn.counted = none then Learn.idle
      else { e.learn with state := .ending, remaining := 1 } }

theorem learnClose_eq (s : State) (l : Lane) :
    learnClose s l =
      if (s.engines.get l).Learns then raise .learned (s.mapEngine l LaneEngine.learnClosed)
      else s.mapEngine l LaneEngine.learnClosed := by
  have hkeep : ∀ e, e = s.engines.get l → e.learnClosed = e → s = s.mapEngine l LaneEngine.learnClosed := by
    rintro e rfl he
    rw [State.mapEngine, he, PerLane.set_get]
  unfold learnClose endLearn
  generalize he : s.engines.get l = e at hkeep ⊢
  obtain ⟨settings, detector, work, state, remaining, sum, count, counted⟩ := e
  cases state with
  | idle => exact hkeep _ rfl rfl
  | ending => exact hkeep _ rfl rfl
  | active =>
    cases counted with
    | some k => simp [State.mapLearn, State.mapEngine, LaneEngine.learnClosed, LaneEngine.Learns, he]
    | none =>
      by_cases hc : count = 0 <;>
        simp [State.mapLearn, State.mapEngine, LaneEngine.learnClosed, LaneEngine.Learns, he, hc]

/-- The engines and the event sets at CLOSE, for some of the lanes. -/
def learnsClosed (ls : List Lane) (s : State) : State :=
  { s with
    engines := s.engines.mapIdx (fun l e => if l ∈ ls then e.learnClosed else e)
    ports := if ∃ l ∈ ls, (s.engines.get l).Learns then (raise .learned s).ports else s.ports }

theorem foldl_learnClose {ls : List Lane} (hnodup : ls.Nodup) (s : State) :
    ls.foldl learnClose s = learnsClosed ls s := by
  induction ls generalizing s with
  | nil =>
    have hid : s.engines.mapIdx (fun l e => if l ∈ ([] : List Lane) then e.learnClosed else e) = s.engines :=
      PerLane.ext_get (fun m => by rw [PerLane.get_mapIdx, if_neg (by simp)])
    rw [learnsClosed, hid, if_neg (by simp)]
    rfl
  | cons l ls ih =>
    obtain ⟨hl, hnodup⟩ := List.nodup_cons.mp hnodup
    have hother : ∀ m ∈ ls, (s.mapEngine l LaneEngine.learnClosed).engines.get m = s.engines.get m := fun m hm =>
      State.mapEngine_get_other _ _ (fun h => hl (h ▸ hm))
    have hengines : (s.mapEngine l LaneEngine.learnClosed).engines.mapIdx
          (fun m e => if m ∈ ls then e.learnClosed else e) =
        s.engines.mapIdx (fun m e => if m ∈ l :: ls then e.learnClosed else e) := by
      refine PerLane.ext_get (fun m => ?_)
      rw [PerLane.get_mapIdx, PerLane.get_mapIdx]
      by_cases hm : m = l
      · rw [hm, if_neg hl, if_pos (List.mem_cons_self ..), State.mapEngine_get_self]
      · rw [State.mapEngine_get_other _ _ hm]
        simp only [List.mem_cons, hm, false_or]
    have hlearns : (∃ m ∈ ls, ((s.mapEngine l LaneEngine.learnClosed).engines.get m).Learns) ↔
        ∃ m ∈ ls, (s.engines.get m).Learns :=
      exists_congr (fun m => and_congr_right (fun hm => by rw [hother m hm]))
    rw [List.foldl_cons, ih hnodup, learnClose_eq, apply_ite (learnsClosed ls)]
    have hraised : ∀ u, (raise .learned (raise .learned u)).ports = (raise .learned u).ports := fun u =>
      congrArg State.ports (raise_raise .learned u)
    by_cases hself : (s.engines.get l).Learns
    · rw [if_pos hself]
      have hany : ∃ m ∈ l :: ls, (s.engines.get m).Learns := ⟨l, List.mem_cons_self .., hself⟩
      unfold learnsClosed
      rw [if_pos hany, raise_engines, hengines, hraised]
      split <;> rfl
    · rw [if_neg hself]
      have hany : (∃ m ∈ l :: ls, (s.engines.get m).Learns) ↔ ∃ m ∈ ls, (s.engines.get m).Learns := by
        simp [hself]
      unfold learnsClosed
      simp only [hany, hlearns, hengines]
      rfl

theorem takeClose_eq (u : Unit) (s : State) :
    takeClose u s =
      (learnsClosed Lane.all (releaseRule { s with pass := { s.pass with state := .closing } }), .done) :=
  congrArg (·, Result.done) (foldl_learnClose (by decide) _)

/-! ## The whole frame -/

/-- Settles O14. -/
theorem closeMovesToClosing : Obligations.CloseMovesToClosing := by
  intro s p n hfree hright hrun hrunout u learns
  have hdone : acceptance s p .closePass 0#8 = .done :=
    acceptance_done (by simpa [requiredResource, Rights.owner]) (by rw [hrun]; rfl)
  have htaken := (closePass_isRequest p).taken (a := ()) n hfree hdone
  rw [takeClose_eq] at htaken
  obtain ⟨hpend, hscan, htrack, heng, hrights, hwindow, hcat⟩ :=
    releaseRule_frame { s with pass := { s.pass with state := .closing } }
  have hpass : u.pass = { s.pass with state := .closing } :=
    (releaseRule_pass _).trans (if_neg (fun h => Bool.false_ne_true (hrunout.symm.trans h.2.2.1)))
  have hall : ∀ l : Lane, l ∈ Lane.all := by intro l; cases l <;> decide
  have hlearns : (∃ l ∈ Lane.all, (u.engines.get l).Learns) ↔ ∃ l, learns l := by
    rw [heng]
    exact exists_congr (fun l => and_iff_right (hall l))
  have hports : (learnsClosed Lane.all u).ports =
      if ∃ l ∈ Lane.all, (u.engines.get l).Learns then (raise .learned u).ports else u.ports := rfl
  refine ⟨_, htaken, hpass, ?scan, htrack, hwindow, rfl, hrights, hpend, ?counter, ?cursors, fun l => ?engines, ?learned,
    ?quietEvents, frameEnded_lastResult _ p _ _, fun x => ?mask, fun x hx => ?quiet⟩
  case scan =>
    have hready : readyOf u = false := by rw [readyOf, hpass]; rfl
    exact congrArg₂ (fun (x : ScanInput) b => ({ x with ready := b } : ScanInput)) hscan hready
  case counter => exact (congrArg Catalogue.counter hcat :)
  case cursors => exact (congrArg Catalogue.cursors hcat :)
  case engines =>
    have hl : (learnsClosed Lane.all u).engines.get l = (s.engines.get l).learnClosed := by
      rw [← congrArg (fun x => PerLane.get x l) heng]
      exact (PerLane.get_mapIdx _ _ _).trans (if_pos (hall l))
    simp only [settle_engines, State.frameEnded_engines]
    rw [hl]
    exact ⟨rfl, rfl, rfl, rfl⟩
  case learned =>
    intro hsome
    have hev : ∀ x, ((learnsClosed Lane.all u).ports.get x).events = (u.ports.get x).events ||| Event.learned.flag := by
      intro x
      rw [hports, if_pos (hlearns.mpr hsome), raise_port]
    refine ⟨fun x => ?_, fun x => (frameEnded_events _ p _ _ x).trans (hev x)⟩
    have h := raise_sets .learned u x
    rw [raise_port] at h
    rw [frameEnded_events, hev]
    exact h
  case quietEvents =>
    intro hnone x
    rw [frameEnded_events, hports, if_neg (fun h => (hlearns.mp h).elim hnone)]
  case mask =>
    have hmask : ((learnsClosed Lane.all u).ports.get x).mask = (u.ports.get x).mask := by
      rw [hports]
      split
      · rw [raise_port]
      · rfl
    have hu := congrArg PortState.mask (releaseRule_quiet { s with pass := { s.pass with state := .closing } } x)
    exact (frameEnded_mask _ p _ _ x).trans (hmask.trans hu)
  case quiet =>
    have hlearned : ((learnsClosed Lane.all u).ports.get x).quiet = (u.ports.get x).quiet := by
      rw [hports]
      split
      · exact raise_quiet ..
      · rfl
    rw [frameEnded_quiet _ _ _ hx, hlearned]
    exact releaseRule_quiet { s with pass := { s.pass with state := .closing } } x

end Sys2Proof.Machine
end

section
/-! The reply of a read: its nibbles one after the other, for any source of data whose items and changes are known byte by
byte (R166, R169, R170). -/

namespace Sys2Proof.Machine

/-! ## The bytes that items make -/

/-- The bytes left of the item under way before data byte k, where `chunk k` is the item that begins with byte k. -/
def streamRest (chunk : Nat → List Byte) : Nat → List Byte
  | 0 => []
  | k + 1 => (if streamRest chunk k = [] then chunk k else streamRest chunk k).tail

/-- Data byte k. -/
def streamByte (chunk : Nat → List Byte) (k : Nat) : Byte :=
  (if streamRest chunk k = [] then chunk k else streamRest chunk k).headD 0#8

/-- The items from data byte k on make up a list of bytes, and zeros after it. -/
inductive Chunked (chunk : Nat → List Byte) : Nat → List Byte → Prop
  | done {k} (h : ∀ j, k ≤ j → chunk j = [0#8]) : Chunked chunk k []
  | item {k c data} (hc : chunk k = c) (hne : c ≠ []) (h : Chunked chunk (k + c.length) data) : Chunked chunk k (c ++ data)

theorem streamRest_within {chunk : Nat → List Byte} {k : Nat} {c : List Byte} (hc : chunk k = c)
    (hk : streamRest chunk k = []) : ∀ j, j < c.length → streamRest chunk (k + j + 1) = c.drop (j + 1)
  | 0, _ => by rw [Nat.add_zero, streamRest, if_pos hk, hc, List.drop_one]
  | j + 1, hj => by
    have ih := streamRest_within hc hk j (by omega)
    have hne : c.drop (j + 1) ≠ [] := fun h => by
      have hlen := List.drop_eq_nil_iff.mp h
      omega
    rw [← Nat.add_assoc, streamRest, ih, if_neg hne, List.tail_drop]

theorem streamByte_within {chunk : Nat → List Byte} {k : Nat} {c : List Byte} (hc : chunk k = c)
    (hk : streamRest chunk k = []) {j : Nat} (hj : j < c.length) : streamByte chunk (k + j) = c.getD j 0#8 := by
  cases j with
  | zero =>
    rw [Nat.add_zero, streamByte, if_pos hk, hc]
    cases c <;> rfl
  | succ j =>
    have hr : streamRest chunk (k + (j + 1)) = c.drop (j + 1) := streamRest_within hc hk j (by omega)
    have hne : c.drop (j + 1) ≠ [] := fun h => by
      have hlen := List.drop_eq_nil_iff.mp h
      omega
    rw [streamByte, hr, if_neg hne, List.headD_eq_head?_getD, List.head?_drop, List.getD_eq_getElem?_getD]

/-- The bytes of chunked data. -/
theorem streamByte_of_chunked {chunk : Nat → List Byte} {k : Nat} {data : List Byte} (h : Chunked chunk k data)
    (hk : streamRest chunk k = []) (j : Nat) : streamByte chunk (k + j) = data.getD j 0#8 := by
  induction h generalizing j with
  | @done k h =>
    have hrest : ∀ i, streamRest chunk (k + i) = [] := by
      intro i
      induction i with
      | zero => exact hk
      | succ i ih => rw [← Nat.add_assoc, streamRest, if_pos ih, h _ (Nat.le_add_right k i)]; rfl
    rw [streamByte, if_pos (hrest j), h _ (Nat.le_add_right k j)]
    rfl
  | @item k c data hc hne _ ih =>
    have hpos : 0 < c.length := List.length_pos_iff.mpr hne
    by_cases hj : j < c.length
    · rw [streamByte_within hc hk hj, List.getD_append _ _ _ _ hj]
    · have hend : streamRest chunk (k + c.length) = [] := by
        have hlast := streamRest_within hc hk (c.length - 1) (by omega)
        rwa [Nat.add_assoc, Nat.sub_add_cancel hpos, List.drop_length] at hlast
      have hsplit : k + j = k + c.length + (j - c.length) := by omega
      rw [hsplit, ih hend, List.getD_append_right _ _ _ _ (by omega)]

/-! ## The nibbles of a reply -/

/-- A port with its clock pulses, its byte, its item and its driven nibbles replaced. -/
def PortState.pulsed (q : PortState) (n : Nat) (b : Byte) (item : List Byte) (driven : List Nibble) : PortState :=
  { q with pulses := n, byte := b, item := item, driven := driven }

theorem setByte_pulsed (s : State) (p : Port) (n : Nat) (b c : Byte) (i rest : List Byte) (d : List Nibble) :
    setByte p c rest (s.mapPort p (fun q => q.pulsed n b i d)) = s.mapPort p (fun q => q.pulsed n c rest d) := by
  rw [setByte, State.mapPort_mapPort]
  rfl

theorem get_mapPort_pulsed (s : State) (p : Port) (n : Nat) (b : Byte) (i : List Byte) (d : List Nibble) :
    (s.mapPort p (fun q => q.pulsed n b i d)).ports.get p = (s.ports.get p).pulsed n b i d := PerPort.get_set_self _ _ _

/-- The first two nibbles of a reply: its status byte. -/
theorem shiftNibble_first (src : Source) (p : Port) (s : State) (h : (s.ports.get p).pulses = 0) :
    shiftNibble src p s =
      s.mapPort p (fun q =>
        q.pulsed 1 (statusByte s p) [] ((s.ports.get p).driven ++ [nibbleOf (statusByte s p) 0])) := by
  unfold shiftNibble composeByte setByte
  simp only [h, Nat.zero_mod, Nat.zero_div, if_true, State.mapPort_mapPort]
  unfold State.mapPort PortState.drive PortState.pulsed
  simp only [h]
  rfl

theorem shiftNibble_second (src : Source) (p : Port) (s : State) (h : (s.ports.get p).pulses = 1) :
    shiftNibble src p s =
      s.mapPort p (fun q =>
        q.pulsed 2 (s.ports.get p).byte (s.ports.get p).item
          ((s.ports.get p).driven ++ [nibbleOf (s.ports.get p).byte 1])) := by
  unfold shiftNibble
  simp only [h]
  unfold State.mapPort PortState.drive PortState.pulsed
  simp [h, nibbleOf]

/-- The byte composed while an item is under way. -/
theorem composeByte_rest {src : Source} {p : Port} {s : State} {b : Byte} {rest : List Byte}
    (h : (s.ports.get p).pulses / 2 ≠ 0) (hi : (s.ports.get p).item = b :: rest) :
    composeByte src p s = setByte p b rest s := by
  simp only [composeByte, if_neg h, hi]

/-- The byte composed as an item begins. -/
theorem composeByte_item {src : Source} {p : Port} {s t : State} {k : Nat} {c : List Byte}
    (h : (s.ports.get p).pulses / 2 = k + 1) (hi : (s.ports.get p).item = []) (hs : src.item p k s = (t, c)) :
    composeByte src p s = setByte p (c.headD 0#8) c.tail t := by
  simp only [composeByte, h, if_neg (Nat.succ_ne_zero k), hi, Nat.add_sub_cancel, hs]
  cases c <;> rfl

/-- What a source gives for the data bytes from byte `first` on, as far as `count` bytes: the states `before` a byte and
`during` it, the driving apart, and the item `chunk` that begins with a byte where none is under way. -/
structure Streams (src : Source) (p : Port) (first count : Nat) (before during : Nat → State) (chunk : Nat → List Byte) :
    Prop where
  begins : ∀ k, k < count → streamRest chunk k = [] → ∀ n b i d,
    src.item p (first + k) ((before k).mapPort p (fun q => q.pulsed n b i d)) =
      ((during k).mapPort p (fun q => q.pulsed n b i d), chunk k)
  goesOn : ∀ k, k < count → streamRest chunk k ≠ [] → during k = before k
  ends   : ∀ k, k < count → ∀ n b i d,
    src.shifted p (first + k) ((during k).mapPort p (fun q => q.pulsed n b i d)) =
      (before (k + 1)).mapPort p (fun q => q.pulsed n b i d)

section
variable {src : Source} {p : Port} {first count : Nat} {before during : Nat → State} {chunk : Nat → List Byte}

/-- The high nibble of a data byte. -/
theorem Streams.high (h : Streams src p first count before during chunk) {k : Nat} (hk : k < count) (b : Byte)
    (d : List Nibble) :
    shiftNibble src p ((before k).mapPort p (fun q => q.pulsed (2 * (first + 1 + k)) b (streamRest chunk k) d)) =
      (during k).mapPort p (fun q =>
        q.pulsed (2 * (first + 1 + k) + 1) (streamByte chunk k) (streamRest chunk (k + 1))
          (d ++ [nibbleOf (streamByte chunk k) 0])) := by
  have hodd : 2 * (first + 1 + k) % 2 = 0 := by omega
  have hhalf : 2 * (first + 1 + k) / 2 = first + k + 1 := by omega
  have hcompose : composeByte src p
        ((before k).mapPort p (fun q => q.pulsed (2 * (first + 1 + k)) b (streamRest chunk k) d)) =
      (during k).mapPort p (fun q =>
        q.pulsed (2 * (first + 1 + k)) (streamByte chunk k) (streamRest chunk (k + 1)) d) := by
    by_cases hr : streamRest chunk k = []
    · have hb : streamByte chunk k = (chunk k).headD 0#8 := by rw [streamByte, if_pos hr]
      have hn : streamRest chunk (k + 1) = (chunk k).tail := by rw [streamRest, if_pos hr]
      rw [composeByte_item (by rw [get_mapPort_pulsed]; exact hhalf) (by rw [get_mapPort_pulsed]; exact hr)
        (h.begins k hk hr _ _ _ _), hb, hn, setByte_pulsed]
    · obtain ⟨c, rest, hc⟩ := List.exists_cons_of_ne_nil hr
      have hb : streamByte chunk k = c := by rw [streamByte, if_neg hr, hc]; rfl
      have hn : streamRest chunk (k + 1) = rest := by rw [streamRest, if_neg hr, hc]; rfl
      rw [composeByte_rest (b := c) (rest := rest) (by rw [get_mapPort_pulsed]; exact hhalf ▸ Nat.succ_ne_zero _)
        (by rw [get_mapPort_pulsed]; exact hc), hb, hn, h.goesOn k hk hr, setByte_pulsed]
  unfold shiftNibble
  rw [get_mapPort_pulsed]
  dsimp only
  rw [if_pos (by exact hodd), hcompose, State.mapPort_mapPort]
  rfl

/-- The low nibble of a data byte. -/
theorem Streams.low (h : Streams src p first count before during chunk) {k : Nat} (hk : k < count) (b : Byte)
    (i : List Byte) (d : List Nibble) :
    shiftNibble src p ((during k).mapPort p (fun q => q.pulsed (2 * (first + 1 + k) + 1) b i d)) =
      (before (k + 1)).mapPort p (fun q =>
        q.pulsed (2 * (first + 1 + (k + 1))) b i (d ++ [nibbleOf b 1])) := by
  have hodd : ¬(2 * (first + 1 + k) + 1) % 2 = 0 := by omega
  have hhalf : (2 * (first + 1 + k) + 1) / 2 = first + k + 1 := by omega
  have hdrive : ((during k).mapPort p (fun q => q.pulsed (2 * (first + 1 + k) + 1) b i d)).mapPort p
        (fun q => q.drive (q.byte.extractLsb' 0 4)) =
      (during k).mapPort p (fun q => q.pulsed (2 * (first + 1 + (k + 1))) b i (d ++ [nibbleOf b 1])) := by
    rw [State.mapPort_mapPort]
    rfl
  unfold shiftNibble
  rw [get_mapPort_pulsed]
  dsimp only [PortState.pulsed]
  rw [if_neg hodd, hhalf, if_neg (Nat.succ_ne_zero _), Nat.add_sub_cancel]
  exact (congrArg (src.shifted p (first + k)) hdrive).trans (h.ends k hk _ _ _ _)

theorem nibbleOf_mod (b : Byte) (k : Nat) : nibbleOf b (k % 2) = nibbleOf b k := by
  unfold nibbleOf
  rw [Nat.mod_mod]

/-- The first n nibbles of the data bytes. -/
def streamNibbles (chunk : Nat → List Byte) (n : Nat) : List Nibble :=
  (List.range n).map (fun i => nibbleOf (streamByte chunk (i / 2)) i)

theorem streamNibbles_succ (chunk : Nat → List Byte) (n : Nat) :
    streamNibbles chunk (n + 1) = streamNibbles chunk n ++ [nibbleOf (streamByte chunk (n / 2)) n] := by
  simp [streamNibbles, List.range_succ]

/-- Clock pulses from a byte boundary on, the status byte having been driven, as far as a byte boundary. -/
theorem Streams.shift_even (h : Streams src p first count before during chunk) (b : Byte) (d : List Nibble) :
    ∀ k, k ≤ count → ∃ c,
      shiftNibbles src p (2 * k) ((before 0).mapPort p (fun q => q.pulsed (2 * (first + 1)) b [] d)) =
        (before k).mapPort p (fun q =>
          q.pulsed (2 * (first + 1 + k)) c (streamRest chunk k) (d ++ streamNibbles chunk (2 * k)))
  | 0, _ => ⟨b, by rw [show streamNibbles chunk (2 * 0) = [] from rfl, List.append_nil]; rfl⟩
  | k + 1, hk => by
    obtain ⟨c, hc⟩ := Streams.shift_even h b d k (by omega)
    have hhigh : nibbleOf (streamByte chunk k) (2 * k) = nibbleOf (streamByte chunk k) 0 := by
      rw [← nibbleOf_mod, show 2 * k % 2 = 0 by omega]
    have hlow : nibbleOf (streamByte chunk k) (2 * k + 1) = nibbleOf (streamByte chunk k) 1 := by
      rw [← nibbleOf_mod, show (2 * k + 1) % 2 = 1 by omega]
    have hnibbles : streamNibbles chunk (2 * (k + 1)) =
        streamNibbles chunk (2 * k) ++ [nibbleOf (streamByte chunk k) 0] ++ [nibbleOf (streamByte chunk k) 1] := by
      rw [Nat.mul_succ, streamNibbles_succ, streamNibbles_succ, show 2 * k / 2 = k by omega,
        show (2 * k + 1) / 2 = k by omega, hhigh, hlow]
    refine ⟨streamByte chunk k, ?_⟩
    rw [Nat.mul_succ, shiftNibbles_succ, shiftNibbles_succ, hc, h.high (by omega), h.low (by omega), ← Nat.mul_succ,
      hnibbles, List.append_assoc, List.append_assoc, List.append_assoc]

/-- Clock pulses from a byte boundary on, the status byte having been driven. -/
theorem Streams.shift (h : Streams src p first count before during chunk) (b : Byte) (d : List Nibble) (n : Nat)
    (hn : n ≤ 2 * count) :
    ∃ c, shiftNibbles src p n ((before 0).mapPort p (fun q => q.pulsed (2 * (first + 1)) b [] d)) =
      (if n % 2 = 0 then before (n / 2) else during (n / 2)).mapPort p (fun q =>
        q.pulsed (2 * (first + 1) + n) c (streamRest chunk ((n + 1) / 2)) (d ++ streamNibbles chunk n)) := by
  obtain ⟨k, rfl | rfl⟩ : ∃ k, n = 2 * k ∨ n = 2 * k + 1 := ⟨n / 2, by omega⟩
  · obtain ⟨c, hc⟩ := h.shift_even b d k (by omega)
    refine ⟨c, ?_⟩
    rw [hc, if_pos (by omega), show 2 * k / 2 = k by omega, show (2 * k + 1) / 2 = k by omega,
      show 2 * (first + 1) + 2 * k = 2 * (first + 1 + k) by omega]
  · obtain ⟨c, hc⟩ := h.shift_even b d k (by omega)
    have hhigh : nibbleOf (streamByte chunk k) (2 * k) = nibbleOf (streamByte chunk k) 0 := by
      rw [← nibbleOf_mod, show 2 * k % 2 = 0 by omega]
    refine ⟨streamByte chunk k, ?_⟩
    rw [shiftNibbles_succ, hc, h.high (by omega), if_neg (by omega), streamNibbles_succ, show 2 * k / 2 = k by omega,
      show (2 * k + 1) / 2 = k by omega, show (2 * k + 1 + 1) / 2 = k + 1 by omega, hhigh, List.append_assoc,
      show 2 * (first + 1) + (2 * k + 1) = 2 * (first + 1 + k) + 1 by omega]

end

end Sys2Proof.Machine
end

section
/-! Reads in parts and what they leave unchanged (O6): a read's clock pulses touch their port and, for CWALK, its cursor, keep
the port in its frame, and go with the re-judging of the outputs. -/

namespace Sys2Proof.Machine

/-! ## Clock pulses -/

theorem shiftNibbles_add (src : Source) (p : Port) (n m : Nat) (s : State) :
    shiftNibbles src p (n + m) s = shiftNibbles src p m (shiftNibbles src p n s) := by
  induction n generalizing s with
  | zero => rw [Nat.zero_add, shiftNibbles]
  | succ n ih => rw [Nat.add_right_comm, shiftNibbles, ih, shiftNibbles]

/-- A change of the pulses, the byte, the item and the driven nibbles of a port. -/
def PulseChange (f : PortState → PortState) : Prop := ∀ q, ∃ n b i d, f q = q.pulsed n b i d

/-- What a property of two states that every part of a clock pulse has gives for clock pulses. -/
theorem shiftNibbles_rel {src : Source} {p : Port} {R : State → State → Prop} (hrefl : ∀ s, R s s)
    (htrans : ∀ {s t u}, R s t → R t u → R s u) (hport : ∀ f, PulseChange f → ∀ s, R s (s.mapPort p f))
    (hitem : ∀ k s, R s (src.item p k s).1) (hshifted : ∀ k s, R s (src.shifted p k s)) (n : Nat) (s : State) :
    R s (shiftNibbles src p n s) := by
  have hset : ∀ b i s, R s (setByte p b i s) := fun b i s => hport _ (fun q => ⟨q.pulses, b, i, q.driven, rfl⟩) s
  have hdrive : ∀ (g : PortState → Nibble) s, R s (s.mapPort p (fun q => q.drive (g q))) := fun g s =>
    hport _ (fun q => ⟨q.pulses + 1, q.byte, q.item, q.driven ++ [g q], rfl⟩) s
  have hcompose : ∀ s, R s (composeByte src p s) := by
    intro s
    unfold composeByte
    dsimp only
    split
    · exact hset _ _ s
    · split
      · exact hset _ _ s
      · have h := hitem ((s.ports.get p).pulses / 2 - 1) s
        split
        · next s1 hs =>
          rw [hs] at h
          exact htrans h (hset _ _ s1)
        · next s1 b rest hs =>
          rw [hs] at h
          exact htrans h (hset _ _ s1)
  have hone : ∀ s, R s (shiftNibble src p s) := by
    intro s
    unfold shiftNibble
    dsimp only
    split
    · exact htrans (hcompose s) (hdrive _ _)
    · split
      · exact hdrive _ s
      · exact htrans (hdrive _ s) (hshifted _ _)
  induction n generalizing s with
  | zero => exact hrefl s
  | succ n ih => exact htrans (hone s) (ih _)

/-! ## What a read touches -/

/-- The state t is s but for port p, whose event set and event mask are kept, and, where `w` holds, the target of that port's
cursor. -/
def ReadMove (w : Prop) (p : Port) (s t : State) : Prop :=
  ∃ (q : PortState) (x : Option Nat), q.events = (s.ports.get p).events ∧ q.mask = (s.ports.get p).mask ∧
    (¬w → x = (s.catalogue.cursors.get p).target) ∧
    t = ({ s with ports := s.ports.set p q } : State).setCursor p ⟨x, (s.catalogue.cursors.get p).direction⟩

theorem setCursor_same (s : State) (p : Port) : s.setCursor p (s.catalogue.cursors.get p) = s := by
  rw [State.setCursor, PerPort.set_get]

theorem ReadMove.refl (w : Prop) (p : Port) (s : State) : ReadMove w p s s :=
  ⟨s.ports.get p, (s.catalogue.cursors.get p).target, rfl, rfl, fun _ => rfl, by
    rw [PerPort.set_get]
    exact (setCursor_same s p).symm⟩

theorem ReadMove.trans {w : Prop} {p : Port} {s t u : State} (h : ReadMove w p s t) (h' : ReadMove w p t u) :
    ReadMove w p s u := by
  obtain ⟨q, x, he, hm, hx, rfl⟩ := h
  obtain ⟨q', x', he', hm', hx', rfl⟩ := h'
  have hq : (({ s with ports := s.ports.set p q } : State).setCursor p
      ⟨x, (s.catalogue.cursors.get p).direction⟩).ports.get p = q := PerPort.get_set_self ..
  have hc : (({ s with ports := s.ports.set p q } : State).setCursor p
      ⟨x, (s.catalogue.cursors.get p).direction⟩).catalogue.cursors.get p = ⟨x, (s.catalogue.cursors.get p).direction⟩ :=
    PerPort.get_set_self ..
  rw [hq] at he' hm'
  rw [hc] at hx'
  refine ⟨q', x', he'.trans he, hm'.trans hm, fun hw => (hx' hw).trans (hx hw), ?_⟩
  rw [hc]
  simp only [State.setCursor, PerPort.set_set]

theorem ReadMove.mapPort {w : Prop} {p : Port} {f : PortState → PortState}
    (hf : ∀ q, (f q).events = q.events ∧ (f q).mask = q.mask) (s : State) : ReadMove w p s (s.mapPort p f) :=
  ⟨f (s.ports.get p), (s.catalogue.cursors.get p).target, (hf _).1, (hf _).2, fun _ => rfl,
    (setCursor_same (s.mapPort p f) p).symm⟩

theorem ReadMove.setCursor {w : Prop} (hw : w) {p : Port} (x : Option Nat) (s : State) :
    ReadMove w p s (s.setCursor p { s.catalogue.cursors.get p with target := x }) :=
  ⟨s.ports.get p, x, rfl, rfl, fun h => absurd hw h, by rw [PerPort.set_get]⟩

/-- What keeps a port in the frame it is in. -/
def KeepsFrame (p : Port) (s t : State) : Prop :=
  (t.ports.get p).frame = (s.ports.get p).frame ∧ (t.ports.get p).received = (s.ports.get p).received ∧
    (t.ports.get p).verdict = (s.ports.get p).verdict

theorem KeepsFrame.trans {p : Port} {s t u : State} (h : KeepsFrame p s t) (h' : KeepsFrame p t u) : KeepsFrame p s u :=
  ⟨h'.1.trans h.1, h'.2.1.trans h.2.1, h'.2.2.trans h.2.2⟩

theorem KeepsFrame.mapPort {p : Port} {f : PortState → PortState}
    (hf : ∀ q, (f q).frame = q.frame ∧ (f q).received = q.received ∧ (f q).verdict = q.verdict) (s : State) :
    KeepsFrame p s (s.mapPort p f) := by
  unfold KeepsFrame
  rw [State.mapPort_ports, PerPort.get_set_self]
  exact hf _

/-! ## Sources -/

/-- A source that touches its port alone, or its cursor besides, and keeps the port in its frame. -/
structure ReadsOnly (w : Prop) (p : Port) (src : Source) : Prop where
  item    : ∀ k s, ReadMove w p s (src.item p k s).1 ∧ KeepsFrame p s (src.item p k s).1
  shifted : ∀ k s, ReadMove w p s (src.shifted p k s) ∧ KeepsFrame p s (src.shifted p k s)

theorem readStill {w : Prop} {p : Port} (s : State) : ReadMove w p s s ∧ KeepsFrame p s s :=
  ⟨.refl w p s, rfl, rfl, rfl⟩

theorem readMapPort {w : Prop} {p : Port} {f : PortState → PortState} (s : State)
    (hf : ∀ q, (f q).events = q.events ∧ (f q).mask = q.mask ∧ (f q).frame = q.frame ∧ (f q).received = q.received ∧
      (f q).verdict = q.verdict) : ReadMove w p s (s.mapPort p f) ∧ KeepsFrame p s (s.mapPort p f) :=
  ⟨.mapPort (fun q => ⟨(hf q).1, (hf q).2.1⟩) s, .mapPort (fun q => (hf q).2.2) s⟩

theorem readsOnly_plain (w : Prop) (p : Port) (item : Port → Nat → State → List Byte) : ReadsOnly w p (plainData item) :=
  ⟨fun _ s => readStill s, fun _ s => readStill s⟩

theorem readsOnly_dnext (w : Prop) (p : Port) (a : Byte) : ReadsOnly w p (dnextData a) := by
  refine ⟨fun k s => ?_, fun _ s => readStill s⟩
  change ReadMove w p s (dnextItem p k s).1 ∧ KeepsFrame p s (dnextItem p k s).1
  unfold dnextItem
  split
  · exact readStill s
  · dsimp only
    exact readMapPort s (fun _ => ⟨rfl, rfl, rfl, rfl, rfl⟩)

theorem readsOnly_cwalk (p : Port) (a : Unit) : ReadsOnly True p (cwalkData a) := by
  constructor
  · intro k s
    change ReadMove True p s (walkItem p s).1 ∧ KeepsFrame p s (walkItem p s).1
    unfold walkItem
    split
    · dsimp only
      exact readMapPort s (fun _ => ⟨rfl, rfl, rfl, rfl, rfl⟩)
    · dsimp only
      exact readMapPort s (fun _ => ⟨rfl, rfl, rfl, rfl, rfl⟩)
  · intro k s
    change ReadMove True p s (walkShifted p k s) ∧ KeepsFrame p s (walkShifted p k s)
    unfold walkShifted
    split
    · split
      · exact readStill s
      · next e _ =>
        have hport := readMapPort (w := True) (p := p) (f := fun q => { q with walked := none })
          (s.setCursor p { s.catalogue.cursors.get p with
            target := (walkNext s e (s.catalogue.cursors.get p).direction).map (fun x => x.number) })
          (fun _ => ⟨rfl, rfl, rfl, rfl, rfl⟩)
        exact ⟨(ReadMove.setCursor trivial _ s).trans hport.1, hport.2⟩
    · exact readStill s

theorem ReadsOnly.readSource {α : Type} {w : Prop} {p : Port} {data : α → Source} (h : ∀ a, ReadsOnly w p (data a))
    (dec : List Byte → Option α) : ReadsOnly w p (readSource dec data) := by
  constructor <;>
    · intro k s
      dsimp only [Machine.readSource]
      split
      · next a _ _ => first | exact (h a).item k s | exact (h a).shifted k s
      · exact readStill s

theorem ReadsOnly.shiftNibbles {w : Prop} {p : Port} {src : Source} (h : ReadsOnly w p src) (n : Nat) (s : State) :
    ReadMove w p s (shiftNibbles src p n s) ∧ KeepsFrame p s (shiftNibbles src p n s) := by
  refine shiftNibbles_rel (R := fun s t => ReadMove w p s t ∧ KeepsFrame p s t) (fun s => readStill s)
    (fun h h' => ⟨h.1.trans h'.1, h.2.trans h'.2⟩) (fun f hf s => ?_) h.item h.shifted n s
  have hkept : ∀ q, (f q).events = q.events ∧ (f q).mask = q.mask ∧ (f q).frame = q.frame ∧ (f q).received = q.received ∧
      (f q).verdict = q.verdict := by
    intro q
    obtain ⟨n, b, i, d, hq⟩ := hf q
    rw [hq]
    exact ⟨rfl, rfl, rfl, rfl, rfl⟩
  exact readMapPort s hkept

/-! ## Re-judged outputs -/

/-- A change of one port that goes with the re-judging of its attention. -/
theorem settle_mapPort {p : Port} {f : PortState → PortState}
    (hf : ∀ q, f { q with attention := attentionOf q } = { f q with attention := attentionOf (f q) }) (s : State) :
    settle (s.mapPort p f) = (settle s).mapPort p f :=
  congrArg (fun x => ({ settle s with ports := x } : State))
    (map_mapPort (s := s) (p := p) (f := f) (g := fun q => { q with attention := attentionOf q }) (fun q => (hf q).symm))

/-- A source that goes with the re-judging of the outputs. -/
structure Settles (p : Port) (src : Source) : Prop where
  item    : ∀ k s, src.item p k (settle s) = (settle (src.item p k s).1, (src.item p k s).2)
  shifted : ∀ k s, src.shifted p k (settle s) = settle (src.shifted p k s)

theorem settles_plain {p : Port} {item : Port → Nat → State → List Byte} (h : ∀ k s, item p k (settle s) = item p k s) :
    Settles p (plainData item) :=
  ⟨fun k s => congrArg (settle s, ·) (h k s), fun _ _ => rfl⟩

theorem settles_dnext (p : Port) (a : Byte) : Settles p (dnextData a) := by
  refine ⟨fun k s => ?_, fun _ _ => rfl⟩
  change dnextItem p k (settle s) = (settle (dnextItem p k s).1, (dnextItem p k s).2)
  have hd : ((settle s).ports.get p).drain = (s.ports.get p).drain := by rw [settle_port]
  have hb : ∀ d : DrainRead, d.bind (settle s) = d.bind s := fun _ => rfl
  have hr : ∀ d : DrainRead, d.record (settle s) = d.record s := fun _ => rfl
  unfold dnextItem
  rw [hd]
  cases (s.ports.get p).drain with
  | none => rfl
  | some d =>
    dsimp only
    rw [hb, hr]
    refine Prod.ext ?_ rfl
    dsimp only
    exact (settle_mapPort (fun _ => rfl) s).symm

theorem settles_cwalk (p : Port) (a : Unit) : Settles p (cwalkData a) := by
  constructor
  · intro k s
    change walkItem p (settle s) = (settle (walkItem p s).1, (walkItem p s).2)
    have he : ((settle s).catalogue.cursors.get p).target.bind (entryNumbered (settle s)) =
        (s.catalogue.cursors.get p).target.bind (entryNumbered s) := rfl
    unfold walkItem
    rw [he]
    cases (s.catalogue.cursors.get p).target.bind (entryNumbered s) with
    | none => exact congrArg (·, fillerItem) (settle_mapPort (fun _ => rfl) s).symm
    | some e => exact congrArg (·, e.toBytes) (settle_mapPort (fun _ => rfl) s).symm
  · intro k s
    change walkShifted p k (settle s) = settle (walkShifted p k s)
    have hw : ((settle s).ports.get p).walked = (s.ports.get p).walked := by rw [settle_port]
    unfold walkShifted
    rw [hw]
    split
    · cases (s.ports.get p).walked with
      | none => rfl
      | some e =>
        dsimp only
        rw [settle_mapPort (f := fun q => { q with walked := none }) (fun _ => rfl)]
        rfl
    · rfl

theorem Settles.readSource {α : Type} {p : Port} {data : α → Source} (h : ∀ a, Settles p (data a))
    (dec : List Byte → Option α) : Settles p (readSource dec data) := by
  have hv : ∀ s, ((settle s).ports.get p).verdict = (s.ports.get p).verdict := fun s => by rw [settle_port]
  have ha : ∀ s, receivedArgs (settle s) p = receivedArgs s p := fun s => by rw [receivedArgs, settle_port, receivedArgs]
  constructor
  · intro k s
    dsimp only [Machine.readSource]
    rw [hv, ha]
    cases (s.ports.get p).verdict with
    | done =>
      cases dec (receivedArgs s p) with
      | none => rfl
      | some a => exact (h a).item k s
    | _ => rfl
  · intro k s
    dsimp only [Machine.readSource]
    rw [hv, ha]
    cases (s.ports.get p).verdict with
    | done =>
      cases dec (receivedArgs s p) with
      | none => rfl
      | some a => exact (h a).shifted k s
    | _ => rfl

theorem Settles.shiftNibbles {p : Port} {src : Source} (h : Settles p src) (n : Nat) (s : State) :
    shiftNibbles src p n (settle s) = settle (shiftNibbles src p n s) := by
  have hq : ∀ s : State, ((settle s).ports.get p).pulses = (s.ports.get p).pulses ∧
      ((settle s).ports.get p).item = (s.ports.get p).item := fun s => by
    rw [settle_port]
    exact ⟨rfl, rfl⟩
  have hset : ∀ b i s, setByte p b i (settle s) = settle (setByte p b i s) := fun b i s =>
    (settle_mapPort (fun _ => rfl) s).symm
  have hstatus : ∀ s, statusByte (settle s) p = statusByte s p := fun s =>
    statusByte_congr rfl (by rw [settle_port]) (by rw [settle_port]) (by rw [settle_port])
  have hcompose : ∀ s, composeByte src p (settle s) = settle (composeByte src p s) := by
    intro s
    unfold composeByte
    dsimp only
    rw [(hq s).1, (hq s).2, hstatus, h.item]
    split
    · exact hset _ _ s
    · split
      · exact hset _ _ s
      · obtain ⟨s1, c⟩ := src.item p ((s.ports.get p).pulses / 2 - 1) s
        cases c with
        | nil => exact hset _ _ s1
        | cons b rest => exact hset _ _ s1
  have hone : ∀ s, shiftNibble src p (settle s) = settle (shiftNibble src p s) := by
    intro s
    unfold shiftNibble
    dsimp only
    rw [(hq s).1]
    split
    · rw [hcompose]
      exact (settle_mapPort (fun _ => rfl) _).symm
    · rw [← settle_mapPort (by exact fun _ => rfl)]
      split
      · rfl
      · exact h.shifted _ _
  induction n generalizing s with
  | zero => rfl
  | succ n ih => rw [Machine.shiftNibbles, hone, ih, Machine.shiftNibbles]

/-! ## A read, as a command -/

/-- The commands `c` carry the frames of a read, whose source touches its port and, where `w` holds, its cursor. -/
structure IsRead {α : Type} (w : Prop) (c : Frame α → Instr) (p : Port) (r : Request) (enc : α → List Byte)
    (dec : List Byte → Option α) (check : α → State → State × Result) (data : α → Source) : Prop where
  exec_eq : ∀ f s, exec (c f) s = completed (readFrame p r enc dec check data f s)
  decodes : ∀ a, dec (enc a) = some a
  reads   : ∀ a, ReadsOnly w p (data a)
  settles : ∀ a, Settles p (data a)
  checks  : ∀ a s, ReadMove w p s (check a s).1 ∧ KeepsFrame p s (check a s).1

theorem readsOnly_openCheck {α : Type} (w : Prop) (p : Port) (a : α) (s : State) :
    ReadMove w p s (openCheck a s).1 ∧ KeepsFrame p s (openCheck a s).1 := readStill s

theorem readsOnly_checkDnext (w : Prop) (p : Port) (a : Byte) (s : State) :
    ReadMove w p s (checkDnext p a s).1 ∧ KeepsFrame p s (checkDnext p a s).1 := by
  unfold checkDnext
  split
  · split
    · dsimp only
      exact readMapPort s (fun _ => ⟨rfl, rfl, rfl, rfl, rfl⟩)
    · exact readStill s
  · exact readStill s

theorem lget_isRead (w : Prop) (p : Port) :
    IsRead w (Instr.lget p) p .lget LgetArgs.toBytes LgetArgs.ofBytes openCheck lgetData :=
  ⟨fun _ _ => rfl, LgetArgs.ofBytes_toBytes, fun _ => readsOnly_plain w p _, fun _ => settles_plain (fun _ _ => rfl),
    readsOnly_openCheck w p⟩

theorem rights_isRead (w : Prop) (p : Port) : IsRead w (Instr.rights p) p .rights noArgs noArgsOf openCheck rightsData :=
  ⟨fun _ _ => rfl, noArgsOf_noArgs, fun _ => readsOnly_plain w p _, fun _ => settles_plain (fun _ _ => rfl),
    readsOnly_openCheck w p⟩

theorem events_isRead (w : Prop) (p : Port) : IsRead w (Instr.events p) p .events noArgs noArgsOf openCheck eventsData :=
  ⟨fun _ _ => rfl, noArgsOf_noArgs, fun _ => readsOnly_plain w p _,
    fun _ => settles_plain (fun _ s => by rw [settle_port]), readsOnly_openCheck w p⟩

theorem stat_isRead (w : Prop) (p : Port) : IsRead w (Instr.stat p) p .stat noArgs noArgsOf openCheck statData :=
  ⟨fun _ _ => rfl, noArgsOf_noArgs, fun _ => readsOnly_plain w p _, fun _ => settles_plain (fun _ _ => rfl),
    readsOnly_openCheck w p⟩

theorem caps_isRead (w : Prop) (p : Port) : IsRead w (Instr.caps p) p .caps byteArg byteArgOf openCheck capsData :=
  ⟨fun _ _ => rfl, byteArgOf_byteArg, fun _ => readsOnly_plain w p _, fun _ => settles_plain (fun _ _ => rfl),
    readsOnly_openCheck w p⟩

theorem probe_isRead (w : Prop) (p : Port) :
    IsRead w (Instr.probe p) p .probe ProbeArgs.toBytes ProbeArgs.ofBytes openCheck probeData :=
  ⟨fun _ _ => rfl, ProbeArgs.ofBytes_toBytes, fun _ => readsOnly_plain w p _, fun _ => settles_plain (fun _ _ => rfl),
    readsOnly_openCheck w p⟩

theorem dnext_isRead (w : Prop) (p : Port) : IsRead w (Instr.dnext p) p .dnext byteArg byteArgOf (checkDnext p) dnextData :=
  ⟨fun _ _ => rfl, byteArgOf_byteArg, readsOnly_dnext w p, settles_dnext p, readsOnly_checkDnext w p⟩

theorem cwalk_isRead (p : Port) : IsRead True (Instr.cwalk p) p .cwalk noArgs noArgsOf openCheck cwalkData :=
  ⟨fun _ _ => rfl, noArgsOf_noArgs, readsOnly_cwalk p, settles_cwalk p, readsOnly_openCheck True p⟩

section
variable {α : Type} {w : Prop} {c : Frame α → Instr} {p : Port} {r : Request} {enc : α → List Byte}
  {dec : List Byte → Option α} {check : α → State → State × Result} {data : α → Source}

theorem IsRead.source (hc : IsRead w c p r enc dec check data) : ReadsOnly w p (readSource dec data) :=
  ReadsOnly.readSource hc.reads dec

theorem IsRead.sourceSettles (hc : IsRead w c p r enc dec check data) : Settles p (readSource dec data) :=
  Settles.readSource hc.settles dec

theorem receiveRequest_move (args : List Byte) (s : State) : ReadMove w p s (receiveRequest p r args s) :=
  ReadMove.mapPort (f := fun q => q.startFrame .replying (r.code :: args) none) (fun _ => ⟨rfl, rfl⟩) s

theorem IsRead.receive_move (hc : IsRead w c p r enc dec check data) (a : α) (s : State) :
    ReadMove w p s (receiveRead p r enc check a s) :=
  (receiveRequest_move (enc a) s).trans ((hc.checks a _).1.trans
    (ReadMove.mapPort (f := fun q => { q with verdict := (check a (receiveRequest p r (enc a) s)).2 })
      (fun _ => ⟨rfl, rfl⟩) _))

theorem finishRead_move (s : State) : ReadMove w p s (finishRead p r s) := by
  unfold finishRead
  split
  · exact ReadMove.mapPort (f := fun q => q.endFrame (s.ports.get p).verdict) (fun _ => ⟨rfl, rfl⟩) s
  · exact .refl w p s

/-- Whatever part of a frame a read carries, it touches its port alone, and its cursor besides. -/
theorem IsRead.move (hc : IsRead w c p r enc dec check data) (f : Frame α) (s : State) :
    ReadMove w p s (readFrame p r enc dec check data f s) := by
  have hpulses := fun n t => (hc.source.shiftNibbles n t).1
  cases f with
  | whole a n =>
    dsimp only [readFrame]
    split
    · exact (hc.receive_move a s).trans ((hpulses n _).trans (finishRead_move _))
    · exact .refl w p s
  | receive a =>
    dsimp only [readFrame]
    split
    · exact hc.receive_move a s
    · exact .refl w p s
  | reply n =>
    dsimp only [readFrame]
    split
    · exact hpulses n s
    · exact .refl w p s
  | finish => exact finishRead_move s

/-- The port once code and arguments are received: in its frame, with the bytes that spell the request. -/
theorem IsRead.received (hc : IsRead w c p r enc dec check data) (a : α) (s : State) :
    ((receiveRead p r enc check a s).ports.get p).frame = .replying ∧
      ((receiveRead p r enc check a s).ports.get p).received = r.code :: enc a := by
  obtain ⟨-, hframe, hreceived, -⟩ := hc.checks a (receiveRequest p r (enc a) s)
  have hq : ∀ t : State, ∀ v, ((t.mapPort p (fun q => { q with verdict := v })).ports.get p).frame = (t.ports.get p).frame ∧
      ((t.mapPort p (fun q => { q with verdict := v })).ports.get p).received = (t.ports.get p).received := by
    intro t v
    rw [State.mapPort_ports, PerPort.get_set_self]
    exact ⟨rfl, rfl⟩
  have h0 : ((receiveRequest p r (enc a) s).ports.get p) =
      (s.ports.get p).startFrame .replying (r.code :: enc a) none := PerPort.get_set_self ..
  rw [h0] at hframe hreceived
  exact ⟨((hq _ _).1).trans hframe, ((hq _ _).2).trans hreceived⟩

theorem inFrame_of {s : State} (hframe : (s.ports.get p).frame = .replying)
    (hreceived : (s.ports.get p).received.head? = some r.code) : inFrame s p r = true := by
  simp [inFrame, hframe, hreceived]

theorem inFrame_settle (s : State) : inFrame (settle s) p r = inFrame s p r := by
  rw [inFrame, settle_port, inFrame]

theorem finishRead_settle (s : State) : finishRead p r (settle s) = settle (finishRead p r s) := by
  unfold finishRead
  rw [inFrame_settle]
  split
  · rw [settle_port]
    exact (settle_mapPort (fun _ => rfl) s).symm
  · rfl

/-- A read sent in parts (R166, R170). -/
theorem IsRead.parts (hc : IsRead w c p r enc dec check data) {s : State} (a : α) (n : Nat) (hfree : s.portFree p) :
    PartsDrive c p a n s := by
  have hd : deselected s p = true := by simp [deselected, hfree]
  obtain ⟨hframe, hreceived⟩ := hc.received a s
  obtain ⟨-, hframe', hreceived', -⟩ := hc.source.shiftNibbles n (receiveRead p r enc check a s)
  have hin : inFrame (receiveRead p r enc check a s) p r = true :=
    inFrame_of hframe (congrArg List.head? hreceived)
  have hdriven : ∀ t : State, ((finishRead p r t).ports.get p).driven = (t.ports.get p).driven := by
    intro t
    unfold finishRead
    split
    · rw [endFrame, State.mapPort_ports, PerPort.get_set_self]
      rfl
    · rfl
  refine ⟨settle (receiveRead p r enc check a s),
    settle (shiftNibbles (readSource dec data) p n (receiveRead p r enc check a s)),
    settle (finishRead p r (shiftNibbles (readSource dec data) p n (receiveRead p r enc check a s))), ?_, ?_, ?_, ?_, ?_, ?_, ?_⟩
  · rw [hc.exec_eq, readFrame, if_pos hd, completed]
  · rw [hc.exec_eq, readFrame, inFrame_settle, if_pos hin, hc.sourceSettles.shiftNibbles, completed, settle_settle]
  · rw [hc.exec_eq, readFrame, if_pos hd, completed]
  · rw [hc.exec_eq, readFrame, finishRead_settle, completed, settle_settle]
  · rw [settle_port]
    exact hframe
  · rw [settle_port]
    exact hframe'.trans hframe
  · rw [settle_port, settle_port]
    exact (hdriven _).symm

/-- Clock pulses in two runs (R166). -/
theorem IsRead.joins (hc : IsRead w c p r enc dec check data) (n m : Nat) (s : State) : RepliesJoin c n m s := by
  by_cases hin : inFrame s p r = true
  · obtain ⟨-, hframe, hreceived, -⟩ := hc.source.shiftNibbles n s
    have hin' : inFrame (shiftNibbles (readSource dec data) p n s) p r = true := by
      rw [inFrame, hframe, hreceived]
      exact hin
    refine ⟨settle (shiftNibbles (readSource dec data) p n s), ?_, ?_⟩
    · rw [hc.exec_eq, readFrame, if_pos hin, completed]
    · rw [hc.exec_eq, hc.exec_eq, readFrame, readFrame, inFrame_settle, if_pos hin', if_pos hin,
        hc.sourceSettles.shiftNibbles, ← shiftNibbles_add, completed, completed, settle_settle]
  · refine ⟨settle s, ?_, ?_⟩
    · rw [hc.exec_eq, readFrame, if_neg hin, completed]
    · rw [hc.exec_eq, hc.exec_eq, readFrame, readFrame, inFrame_settle, if_neg hin, if_neg hin, completed, completed,
        settle_settle]

/-- A read that keeps its cursor, in any part of a frame. -/
theorem IsRead.only_port (hc : IsRead False c p r enc dec check data) (f : Frame α) (s : State) :
    ∃ q : PortState, q.events = (s.ports.get p).events ∧ q.mask = (s.ports.get p).mask ∧
      exec (c f) s = .next (settle { s with ports := s.ports.set p q }) := by
  obtain ⟨q, x, he, hm, hx, h⟩ := hc.move f s
  refine ⟨q, he, hm, ?_⟩
  rw [hc.exec_eq, h, hx not_false, completed]
  exact congrArg (fun t => Host.Outcome.next (settle t)) (setCursor_same ({ s with ports := s.ports.set p q } : State) p)

end

/-- Settles O6: one argument for every read, `IsRead`. -/
theorem readsChangeOnlyTheirPort : Obligations.ReadsChangeOnlyTheirPort := by
  refine ⟨?alone, ?walk, fun s p => ⟨?_, ?_, ?_, ?_, ?_, ?_, ?_, ?_, ?_, ?_, ?_, ?_, ?_, ?_, ?_, ?_⟩⟩
  case alone =>
    rintro s p _ (⟨f, rfl⟩ | ⟨f, rfl⟩ | ⟨f, rfl⟩ | ⟨f, rfl⟩ | ⟨f, rfl⟩ | ⟨f, rfl⟩ | ⟨f, rfl⟩)
    · exact (lget_isRead False p).only_port f s
    · exact (rights_isRead False p).only_port f s
    · exact (events_isRead False p).only_port f s
    · exact (stat_isRead False p).only_port f s
    · exact (caps_isRead False p).only_port f s
    · exact (probe_isRead False p).only_port f s
    · exact (dnext_isRead False p).only_port f s
  case walk =>
    intro s p f
    obtain ⟨q, x, he, hm, -, h⟩ := (cwalk_isRead p).move f s
    refine ⟨q, x, he, hm, ?_⟩
    rw [(cwalk_isRead p).exec_eq, h, completed]
  · exact fun a n hfree _ => (lget_isRead False p).parts a n hfree
  · exact fun a n hfree _ => (rights_isRead False p).parts a n hfree
  · exact fun a n hfree _ => (events_isRead False p).parts a n hfree
  · exact fun a n hfree _ => (stat_isRead False p).parts a n hfree
  · exact fun a n hfree _ => (caps_isRead False p).parts a n hfree
  · exact fun a n hfree _ => (probe_isRead False p).parts a n hfree
  · exact fun a n hfree _ => (dnext_isRead False p).parts a n hfree
  · exact fun a n hfree _ => (cwalk_isRead p).parts a n hfree
  · exact fun n m => (lget_isRead False p).joins n m s
  · exact fun n m => (rights_isRead False p).joins n m s
  · exact fun n m => (events_isRead False p).joins n m s
  · exact fun n m => (stat_isRead False p).joins n m s
  · exact fun n m => (caps_isRead False p).joins n m s
  · exact fun n m => (probe_isRead False p).joins n m s
  · exact fun n m => (dnext_isRead False p).joins n m s
  · exact fun n m => (cwalk_isRead p).joins n m s

end Sys2Proof.Machine
end

section
/-! The whole replies of LGET, RIGHTS, CAPS, EVENTS, STAT and PROBE, and the frames of EVCLR and EVMASK (O21, O26 to O29). -/

namespace Sys2Proof.Machine

/-! ## A reply from its status byte on -/

theorem replyNibbles_two_add (f : Nat → Byte) (n : Nat) :
    replyNibbles f (2 + n) =
      [nibbleOf (f 0) 0] ++ [nibbleOf (f 0) 1] ++ (List.range n).map (fun i => nibbleOf (f (i / 2 + 1)) i) := by
  induction n with
  | zero => rfl
  | succ n ih =>
    have hhalf : (2 + n) / 2 = n / 2 + 1 := by omega
    have hmod : nibbleOf (f (n / 2 + 1)) (2 + n) = nibbleOf (f (n / 2 + 1)) n := by
      rw [← nibbleOf_mod, Nat.add_mod_left, nibbleOf_mod]
    rw [← Nat.add_assoc, replyNibbles_succ, ih, hhalf, hmod, List.range_succ, List.map_append, List.append_assoc]
    rfl

section
variable {src : Source} {p : Port} {count : Nat} {before during : Nat → State} {chunk : Nat → List Byte}

/-- The status byte and then the data bytes. -/
def replyByte (status : Byte) (chunk : Nat → List Byte) (i : Nat) : Byte :=
  if i = 0 then status else streamByte chunk (i - 1)

theorem pulsed_self {q : PortState} {n : Nat} {d : List Nibble} (hn : q.pulses = n) (hd : q.driven = d) :
    q.pulsed n q.byte q.item d = q := by
  subst hn hd
  rfl

/-- The clock pulses of a reply from its start on. -/
theorem Streams.reply (h : Streams src p 0 count before during chunk) (hp : ((before 0).ports.get p).pulses = 0)
    (hd : ((before 0).ports.get p).driven = []) {n : Nat} (hn : n ≤ 2 + 2 * count) :
    ∃ m c i, shiftNibbles src p n (before 0) =
      (if n % 2 = 0 then before ((n - 2) / 2) else during ((n - 2) / 2)).mapPort p (fun q =>
        q.pulsed m c i (replyNibbles (replyByte (statusByte (before 0) p) chunk) n)) ∨
      (n < 2 ∧ shiftNibbles src p n (before 0) = (before 0).mapPort p (fun q =>
        q.pulsed m c i (replyNibbles (replyByte (statusByte (before 0) p) chunk) n))) := by
  set status := statusByte (before 0) p with hs
  have hone : shiftNibble src p (before 0) =
      (before 0).mapPort p (fun q => q.pulsed 1 status [] [nibbleOf status 0]) := by
    rw [shiftNibble_first src p _ hp, hd, List.nil_append]
  have htwo : shiftNibbles src p 2 (before 0) =
      (before 0).mapPort p (fun q => q.pulsed (2 * (0 + 1)) status [] ([nibbleOf status 0] ++ [nibbleOf status 1])) := by
    rw [shiftNibbles, shiftNibbles, shiftNibbles, hone, shiftNibble_second _ _ _ (by rw [get_mapPort_pulsed]; rfl),
      get_mapPort_pulsed, State.mapPort_mapPort]
    rfl
  match n, hn with
  | 0, _ =>
    refine ⟨0, ((before 0).ports.get p).byte, ((before 0).ports.get p).item, .inr ⟨by omega, ?_⟩⟩
    have hq : ((before 0).ports.get p).pulsed 0 ((before 0).ports.get p).byte ((before 0).ports.get p).item [] =
        (before 0).ports.get p := pulsed_self hp hd
    rw [shiftNibbles, State.mapPort, replyNibbles_zero, hq, PerPort.set_get]
  | 1, _ => exact ⟨1, status, [], .inr ⟨by omega, by rw [shiftNibbles, shiftNibbles, hone]; rfl⟩⟩
  | n + 2, hn =>
    obtain ⟨c, hc⟩ := h.shift status ([nibbleOf status 0] ++ [nibbleOf status 1]) n (by omega)
    refine ⟨2 * (0 + 1) + n, c, streamRest chunk ((n + 1) / 2), .inl ?_⟩
    rw [Nat.add_comm n 2, shiftNibbles_add, htwo, hc, replyNibbles_two_add, Nat.add_sub_cancel_left, Nat.add_mod_left]
    rfl

end

/-! ## Reads whose data change nothing -/

theorem readSource_item {α : Type} {dec : List Byte → Option α} {data : α → Source} {p : Port} {t : State} {a : α}
    (hv : (t.ports.get p).verdict = .done) (ha : dec (receivedArgs t p) = some a) (k : Nat) :
    (readSource dec data).item p k t = (data a).item p k t ∧ (readSource dec data).shifted p k t = (data a).shifted p k t := by
  dsimp only [readSource]
  rw [hv, ha]
  exact ⟨rfl, rfl⟩

theorem readSource_refused {α : Type} {dec : List Byte → Option α} {data : α → Source} {p : Port} {t : State}
    (hv : (t.ports.get p).verdict ≠ .done) (k : Nat) :
    (readSource dec data).item p k t = (t, [0#8]) ∧ (readSource dec data).shifted p k t = t := by
  dsimp only [readSource]
  cases h : (t.ports.get p).verdict with
  | done => exact absurd h hv
  | _ => exact ⟨rfl, rfl⟩

theorem FrameChange.pulsed (n : Nat) (b : Byte) (i : List Byte) (d : List Nibble) : FrameChange (fun q => q.pulsed n b i d) :=
  ⟨fun _ _ => rfl, fun _ _ => rfl, fun _ _ => rfl, fun _ _ => rfl⟩

/-- A port that has received code and arguments of a read, before its first clock pulse. -/
def State.reading (s : State) (p : Port) (bytes : List Byte) : State :=
  s.mapPort p (fun q => q.startFrame .replying bytes none)

theorem State.reading_port (s : State) (p : Port) (bytes : List Byte) :
    (s.reading p bytes).ports.get p = (s.ports.get p).startFrame .replying bytes none := PerPort.get_set_self ..

theorem statusByte_reading (s : State) (p : Port) (bytes : List Byte) : statusByte (s.reading p bytes) p = statusByte s p :=
  statusByte_congr rfl (by rw [State.reading_port]; rfl) (by rw [State.reading_port]; rfl)
    (by rw [State.reading_port]; rfl)

section
variable {α : Type} {w : Prop} {c : Frame α → Instr} {p : Port} {r : Request} {enc : α → List Byte}
  {dec : List Byte → Option α} {data : α → Source}

theorem receiveRead_open (a : α) (s : State) :
    receiveRead p r enc openCheck a s = s.reading p (r.code :: enc a) := by
  unfold receiveRead openCheck receiveRequest State.reading
  rw [State.mapPort_mapPort]
  rfl

/-- A whole frame of a read, its check passed or not. -/
theorem IsRead.whole {check : α → State → State × Result} (hc : IsRead w c p r enc dec check data) {s : State} (a : α)
    (n : Nat) (hfree : s.portFree p) :
    exec (c (.whole a n)) s =
      .next (settle (finishRead p r (shiftNibbles (readSource dec data) p n (receiveRead p r enc check a s)))) := by
  have hd : deselected s p = true := by simp [deselected, hfree]
  rw [hc.exec_eq, readFrame, if_pos hd, completed]

/-- The end of a read's frame, from its port as the frame found it but for what the frame did. -/
theorem finishRead_reading (s : State) (a : α) (m : Nat) (b : Byte) (i : List Byte) (d : List Nibble) :
    finishRead p r ((s.reading p (r.code :: enc a)).mapPort p (fun q => q.pulsed m b i d)) = s.frameEnded p .done d := by
  have hport : ((s.reading p (r.code :: enc a)).mapPort p (fun q => q.pulsed m b i d)).ports.get p =
      ((s.ports.get p).startFrame .replying (r.code :: enc a) none).pulsed m b i d := by
    rw [get_mapPort_pulsed, State.reading_port]
  have hin : inFrame ((s.reading p (r.code :: enc a)).mapPort p (fun q => q.pulsed m b i d)) p r = true :=
    inFrame_of (by rw [hport]; rfl) (by rw [hport]; rfl)
  rw [finishRead, if_pos hin, hport, State.reading, State.mapPort_mapPort, endFrame, State.mapPort_mapPort]
  rfl

/-- The reply of a read whose data change nothing and rest on nothing that its frame changes. -/
theorem IsRead.plain (hc : IsRead w c p r enc dec openCheck data) {s : State} {a : α} (n : Nat) (hfree : s.portFree p)
    {item : Port → Nat → State → List Byte} (hdata : data a = plainData item)
    (hstable : ∀ f, FrameChange f → ∀ k, item p k (s.mapPort p f) = item p k s) :
    exec (c (.whole a n)) s =
      .next (settle (s.frameEnded p .done
        (replyNibbles (replyByte (statusByte s p) (fun k => item p k s)) n))) := by
  have hstreams : Streams (readSource dec data) p 0 n (fun _ => s.reading p (r.code :: enc a))
      (fun _ => s.reading p (r.code :: enc a)) (fun k => item p k s) := by
    have hport : ∀ m b i d, ((s.reading p (r.code :: enc a)).mapPort p (fun q => q.pulsed m b i d)).ports.get p =
        ((s.ports.get p).startFrame .replying (r.code :: enc a) none).pulsed m b i d := fun m b i d => by
      rw [get_mapPort_pulsed, State.reading_port]
    have hsource := fun k m b i d => readSource_item (data := data) (p := p) (dec := dec) (a := a)
      (t := (s.reading p (r.code :: enc a)).mapPort p (fun q => q.pulsed m b i d)) (by rw [hport]; rfl)
      (by rw [receivedArgs, hport]; exact hc.decodes a) k
    refine ⟨fun k _ _ m b i d => ?_, fun _ _ _ => rfl, fun k _ m b i d => ?_⟩
    · have hk : item p (0 + k) ((s.reading p (r.code :: enc a)).mapPort p (fun q => q.pulsed m b i d)) = item p k s := by
        rw [Nat.zero_add, State.reading, State.mapPort_mapPort]
        exact hstable _ ⟨fun _ _ => rfl, fun _ _ => rfl, fun _ _ => rfl, fun _ _ => rfl⟩ k
      rw [(hsource _ m b i d).1, hdata]
      exact congrArg (_, ·) hk
    · rw [(hsource _ m b i d).2, hdata]
      rfl
  rw [hc.whole a n hfree, receiveRead_open]
  obtain ⟨m, b, i, h | ⟨-, h⟩⟩ := hstreams.reply (by rw [State.reading_port]; rfl) (by rw [State.reading_port]; rfl)
    (n := n) (by omega)
  · rw [ite_self] at h
    rw [h, finishRead_reading, statusByte_reading]
  · rw [h, finishRead_reading, statusByte_reading]

/-- The reply of such a read, its items making up a list of bytes. -/
theorem IsRead.reply (hc : IsRead w c p r enc dec openCheck data) {s : State} {a : α} (n : Nat) (hfree : s.portFree p)
    {item : Port → Nat → State → List Byte} (hdata : data a = plainData item)
    (hstable : ∀ f, FrameChange f → ∀ k, item p k (s.mapPort p f) = item p k s) {bytes : List Byte}
    (h : Chunked (fun k => item p k s) 0 bytes) :
    exec (c (.whole a n)) s = .next (settle (s.frameEnded p .done (readReply s p bytes n))) := by
  have hbyte : replyByte (statusByte s p) (fun k => item p k s) = fun i => (statusByte s p :: bytes).getD i 0#8 := by
    funext i
    cases i with
    | zero => rfl
    | succ i =>
      rw [replyByte, if_neg (Nat.succ_ne_zero i), Nat.add_sub_cancel, List.getD_cons_succ, ← streamByte_of_chunked h rfl,
        Nat.zero_add]
  rw [hc.plain n hfree hdata hstable, hbyte]
  rfl

end

/-! ## LGET, RIGHTS, CAPS, EVENTS, STAT and PROBE -/

theorem FrameChange.mask_eq {f : PortState → PortState} (hf : FrameChange f) (q : PortState) : (f q).mask = q.mask :=
  (congrArg PortState.mask (hf.mask q q.mask) :)

/-! ### Fields (R191) -/

theorem extract_byte_ofNat {n lo : Nat} (v : Nat) (h : lo + 8 ≤ n) :
    (BitVec.ofNat n v).extractLsb' lo 8 = BitVec.ofNat 8 (v / 2 ^ lo) := by
  refine BitVec.eq_of_getLsbD_eq (fun i hi => ?_)
  have hn : lo + i < n := by omega
  rw [BitVec.getLsbD_extractLsb', BitVec.getLsbD_ofNat, BitVec.getLsbD_ofNat, Nat.testBit_div_two_pow, Nat.add_comm i lo]
  simp [hn]

theorem fieldBytes_one (v : Nat) : fieldBytes 1 v = [BitVec.ofNat 8 v] := by simp [fieldBytes]

theorem fieldBytes_two (v : Nat) : fieldBytes 2 v = bytes2 (BitVec.ofNat 16 v) := by
  simp [fieldBytes, List.range_succ, bytes2, extract_byte_ofNat]

theorem fieldBytes_three (v : Nat) : fieldBytes 3 v = bytes3 (BitVec.ofNat 24 v) := by
  simp [fieldBytes, List.range_succ, bytes3, extract_byte_ofNat]

theorem fieldBytes_four (v : Nat) : fieldBytes 4 v = bytes4 (BitVec.ofNat 32 v) := by
  simp [fieldBytes, List.range_succ, bytes4, extract_byte_ofNat]

theorem fieldBytes_five (v : Nat) : fieldBytes 5 v = bytes5 (BitVec.ofNat 40 v) := by
  simp [fieldBytes, List.range_succ, bytes5, extract_byte_ofNat]

/-! ### Chunks -/

theorem Chunked.cons {chunk : Nat → List Byte} {k m : Nat} {c data : List Byte} (hc : chunk k = c) (hm : c.length = m + 1)
    (h : Chunked chunk (k + (m + 1)) data) : Chunked chunk k (c ++ data) :=
  .item hc (List.ne_nil_of_length_eq_add_one hm) (hm ▸ h)

theorem streamRest_of_singles {chunk : Nat → List Byte} {f : Nat → Byte} (h : ∀ k, chunk k = [f k]) (k : Nat) :
    streamRest chunk k = [] := by
  induction k with
  | zero => rfl
  | succ k ih => rw [streamRest, if_pos ih, h]; rfl

theorem streamByte_of_singles {chunk : Nat → List Byte} {f : Nat → Byte} (h : ∀ k, chunk k = [f k]) (k : Nat) :
    streamByte chunk k = f k := by
  rw [streamByte, if_pos (streamRest_of_singles h k), h]
  rfl

/-- Settles O21. -/
theorem lgetReturnsTheStoredValue : Obligations.LgetReturnsTheStoredValue := by
  intro s p a n hfree v
  have hv : lgetValue s a = BitVec.ofNat 32 v := by
    unfold lgetValue
    rw [Lane.ofNat?_eq_getElem?]
    cases h : Lane.all[a.lane.toNat]? with
    | none => simp [v, h]
    | some l => simp [v, h]
  have hbytes : bytes4 (lgetValue s a) ++ [] =
      [BitVec.ofNat 8 (v / 2 ^ 24), BitVec.ofNat 8 (v / 2 ^ 16), BitVec.ofNat 8 (v / 2 ^ 8), BitVec.ofNat 8 v] := by
    rw [hv]
    simp [bytes4, extract_byte_ofNat]
  rw [← hbytes]
  exact (lget_isRead False p).reply n hfree rfl (fun _ _ _ => rfl)
    (.cons (m := 3) rfl rfl (.done (fun j hj => if_neg (by omega))))

/-- Settles O29. -/
theorem probeReturnsTheCheckResult : Obligations.ProbeReturnsTheCheckResult := by
  intro s p a n hfree
  refine ((probe_isRead False p).reply (bytes := [(probeResult s p a).code] ++ []) n hfree rfl (fun _ _ _ => rfl)
    (.cons (m := 0) rfl rfl (.done (fun j hj => if_neg (by omega))))).trans ?_
  unfold probeResult
  cases Request.ofCode a.code <;> rfl

/-- Settles O26. -/
theorem rightsAndCapsReplies : Obligations.RightsAndCapsReplies := by
  constructor
  · intro s p n hfree
    have hpast : ∀ j, 8 ≤ j → Resource.all[j]? = none := fun j hj => List.getElem?_eq_none hj
    exact (rights_isRead False p).reply n hfree rfl (fun _ _ _ => rfl)
      (.cons (m := 0) (c := [_]) rfl rfl (.cons (m := 0) (c := [_]) rfl rfl (.cons (m := 0) (c := [_]) rfl rfl
      (.cons (m := 0) (c := [_]) rfl rfl (.cons (m := 0) (c := [_]) rfl rfl (.cons (m := 0) (c := [_]) rfl rfl
        (.cons (m := 0) (c := [_]) rfl rfl (.cons (m := 0) (c := [_]) rfl rfl
          (.done (fun j hj => by rw [hpast j hj]))))))))))
  · intro s p o n hfree page
    have hpage : capabilityPage = page := by decide
    rw [(caps_isRead False p).plain (a := o) n hfree rfl (fun _ _ _ => rfl), ← hpage]
    refine congrArg (fun f => Host.Outcome.next (settle (s.frameEnded p .done (replyNibbles f n)))) (funext fun i => ?_)
    unfold replyByte
    split
    · rfl
    · exact streamByte_of_singles (f := fun k => capabilityPage.getD (o.toNat + k) 0xFF#8) (fun _ => rfl) _

theorem eventBytes_eq (e : EventSet) :
    eventBytes e = [BitVec.ofNat 8 (e.toNat / 256), BitVec.ofNat 8 e.toNat] := by
  have h : e.zeroExtend 16 = BitVec.ofNat 16 e.toNat := BitVec.eq_of_toNat_eq (by rw [BitVec.toNat_setWidth, BitVec.toNat_ofNat])
  rw [eventBytes, h, bytes2, extract_byte_ofNat _ (by omega), extract_byte_ofNat _ (by omega), pow_zero, Nat.div_one]
  rfl

/-- Settles O27. -/
theorem eventRequestsActOnTheirPort : Obligations.EventRequestsActOnTheirPort := by
  intro s p n hfree
  have hstable : ∀ f, FrameChange f → ∀ k,
      (if k = 0 then eventBytes ((s.mapPort p f).ports.get p).events
        else if k = 2 then eventBytes ((s.mapPort p f).ports.get p).mask else [0#8]) =
      (if k = 0 then eventBytes (s.ports.get p).events
        else if k = 2 then eventBytes (s.ports.get p).mask else [0#8]) := by
    intro f hf k
    rw [State.mapPort_ports, PerPort.get_set_self, hf.events_eq, hf.mask_eq]
  have hdone : ∀ r, r = Request.evclr ∨ r = .evmask → acceptance s p r 0#8 = .done := by
    rintro r (rfl | rfl) <;> exact acceptance_done (by simp [requiredResource]) rfl
  refine ⟨?_, fun m => ?_, fun m => ?_⟩
  · have hbytes : eventBytes (s.ports.get p).events ++ (eventBytes (s.ports.get p).mask ++ []) =
        [BitVec.ofNat 8 ((s.ports.get p).events.toNat / 256), BitVec.ofNat 8 (s.ports.get p).events.toNat,
          BitVec.ofNat 8 ((s.ports.get p).mask.toNat / 256), BitVec.ofNat 8 (s.ports.get p).mask.toNat] := by
      rw [eventBytes_eq, eventBytes_eq]
      rfl
    rw [← hbytes]
    exact (events_isRead False p).reply n hfree rfl hstable (.cons (m := 1) rfl rfl (.cons (m := 1) rfl rfl
      (.done (fun j hj => by rw [if_neg (by omega), if_neg (by omega)]))))
  · rw [(evclr_isRequest p).taken n hfree (hdone _ (.inl rfl)), takeEvclr, eventArgument_eq]
    rfl
  · rw [(evmask_isRequest p).taken n hfree (hdone _ (.inr rfl)), takeEvmask, eventArgument_eq]
    rfl

/-! ### STAT (R178, R196) -/

theorem workBytes_length (w : Work) : (workBytes w).length = 4 + 1 := by cases w <;> rfl

theorem workBytes_eq (w : Work) :
    workBytes w = match w with
      | .none => fieldBytes 1 0 ++ fieldBytes 4 0
      | .live k _ => fieldBytes 1 1 ++ fieldBytes 4 k
      | .reRender k _ => fieldBytes 1 2 ++ fieldBytes 4 k := by
  cases w <;> simp only [fieldBytes_one, fieldBytes_four] <;> rfl

/-- The six bytes of a lane. -/
def statLaneBytes (s : State) (l : Lane) : List Byte := workBytes (workOf s l) ++ [BitVec.ofNat 8 (learnRemaining s l)]

theorem statItem_past (p : Port) (s : State) (j : Nat) (hj : 49 ≤ j) : statItem p j s = [0#8] := by
  obtain ⟨i, hi⟩ : ∃ i, (j - 25) / 6 = i + 4 := ⟨(j - 25) / 6 - 4, by omega⟩
  have hlane : statLane (j - 25) = none := by rw [statLane, hi]; rfl
  unfold statItem
  rw [hlane]
  iterate 10 rw [if_neg (by omega)]

theorem chunked_stat (p : Port) (s : State) :
    Chunked (fun k => statItem p k s) 0
      ([s.pass.state.code] ++ (slotCounts s ++ ([statPresence s] ++ (numberBytes (oldestNumber s) ++
        (numberBytes (newestNumber s) ++ (numberBytes (headNumber s) ++ (bytes2 (BitVec.ofNat 16 s.catalogue.entries.length) ++
          (cursorBytes (s.catalogue.cursors.get p) ++ ([s.tracker.point.lock.code] ++ Lane.all.flatMap (statLaneBytes s)
            ))))))))) := by
  have hlanes : Lane.all.flatMap (statLaneBytes s) =
      workBytes (workOf s .lane0) ++ ([BitVec.ofNat 8 (learnRemaining s .lane0)] ++
        (workBytes (workOf s .lane1) ++ ([BitVec.ofNat 8 (learnRemaining s .lane1)] ++
          (workBytes (workOf s .lane2) ++ ([BitVec.ofNat 8 (learnRemaining s .lane2)] ++
            (workBytes (workOf s .lane3) ++ ([BitVec.ofNat 8 (learnRemaining s .lane3)] ++ []))))))) := by
    simp [Lane.all, statLaneBytes]
  rw [hlanes]
  exact .cons (m := 0) rfl rfl (.cons (m := 4) rfl rfl (.cons (m := 0) rfl rfl (.cons (m := 3) rfl rfl
    (.cons (m := 3) rfl rfl (.cons (m := 3) rfl rfl (.cons (m := 1) rfl rfl (.cons (m := 2) rfl rfl (.cons (m := 0) rfl rfl
      (.cons (m := 4) rfl (workBytes_length _) (.cons (m := 0) rfl rfl
        (.cons (m := 4) rfl (workBytes_length _) (.cons (m := 0) rfl rfl
          (.cons (m := 4) rfl (workBytes_length _) (.cons (m := 0) rfl rfl
            (.cons (m := 4) rfl (workBytes_length _) (.cons (m := 0) rfl rfl
              (.done (statItem_past p s))))))))))))))))))

theorem slotCounts_eq (s : State) :
    slotCounts s = fieldBytes 1 (64 - s.window.blocks.length) ++ (fieldBytes 1 (blocksIn s .filling) ++
      (fieldBytes 1 (blocksIn s .full) ++ (fieldBytes 1 (blocksIn s .held) ++ fieldBytes 1 (blocksIn s .released)))) := by
  simp only [fieldBytes_one]
  rfl

theorem presence_eq (a b c : Bool) :
    ((if a = true then 1#8 else 0#8) ||| (if b = true then 2#8 else 0#8) ||| (if c = true then 4#8 else 0#8) : Byte) =
      BitVec.ofNat 8 ((if a = true then 1 else 0) + (if b = true then 2 else 0) + (if c = true then 4 else 0)) := by
  cases a <;> cases b <;> cases c <;> rfl

theorem statLaneBytes_eq (s : State) (l : Lane) :
    statLaneBytes s l =
      (match workOf s l with
        | .none => fieldBytes 1 0 ++ fieldBytes 4 0
        | .live k _ => fieldBytes 1 1 ++ fieldBytes 4 k
        | .reRender k _ => fieldBytes 1 2 ++ fieldBytes 4 k) ++
      fieldBytes 1 (if l ∈ activeLanes s then (s.engines.get l).learn.remaining else 0) := by
  rw [statLaneBytes, workBytes_eq, learnRemaining, ← fieldBytes_one]

/-- Settles O28: the items of STAT, in their order, are the fields of its layout. -/
theorem statReturnsFortyNineBytes : Obligations.StatReturnsFortyNineBytes := by
  intro s p n hfree blocksIn' oldest newest head data
  have hcount : ∀ x, blocksIn' x = blocksIn s x := by
    intro x
    refine congrArg List.length (List.filter_congr (fun b _ => ?_))
    rw [Bool.eq_iff_iff, decide_eq_true_iff, beq_iff_eq]
  have hstate : fieldBytes 1 (match s.pass.state with
      | .idle => 0
      | .running => 1
      | .closing => 2
      | .ended => 3) = [s.pass.state.code] := by
    cases s.pass.state <;> rfl
  have hlock : fieldBytes 1 (match s.tracker.point.lock with
      | .unlocked => 0
      | .locked => 1
      | .holdover => 2) = [s.tracker.point.lock.code] := by
    cases s.tracker.point.lock <;> rfl
  have hdirection : fieldBytes 1 (if (s.catalogue.cursors.get p).direction = .forward then 0 else 1) =
      [(s.catalogue.cursors.get p).direction.code] := by
    cases (s.catalogue.cursors.get p).direction <;> rfl
  have hdata : data = [s.pass.state.code] ++ (slotCounts s ++ ([statPresence s] ++ (numberBytes (oldestNumber s) ++
        (numberBytes (newestNumber s) ++ (numberBytes (headNumber s) ++ (bytes2 (BitVec.ofNat 16 s.catalogue.entries.length) ++
          (cursorBytes (s.catalogue.cursors.get p) ++ ([s.tracker.point.lock.code] ++ Lane.all.flatMap (statLaneBytes s)
            )))))))) := by
    have hpresence : fieldBytes 1 ((if oldest.isSome = true then 1 else 0) + (if newest.isSome = true then 2 else 0) +
        (if head.isSome = true then 4 else 0)) = [statPresence s] := by
      rw [fieldBytes_one, ← presence_eq]
      rfl
    have hlanes := congrArg (List.flatMap · Lane.all) (funext (fun l => (statLaneBytes_eq s l).symm))
    have hcounts := fun x => congrArg (fieldBytes 1) (hcount x)
    unfold data
    rw [slotCounts_eq, cursorBytes]
    simp only [List.append_assoc]
    exact congrArg₂ _ hstate (congrArg₂ _ rfl (congrArg₂ _ (hcounts _) (congrArg₂ _ (hcounts _) (congrArg₂ _ (hcounts _)
      (congrArg₂ _ (hcounts _) (congrArg₂ _ hpresence (congrArg₂ _ (fieldBytes_four _) (congrArg₂ _ (fieldBytes_four _)
        (congrArg₂ _ (fieldBytes_four _) (congrArg₂ _ (fieldBytes_two _) (congrArg₂ _ (fieldBytes_two _)
          (congrArg₂ _ hdirection (congrArg₂ _ hlock hlanes)))))))))))))
  constructor
  · rw [hdata]
    have hlane : ∀ l, (statLaneBytes s l).length = 6 := fun l => by
      rw [statLaneBytes, List.length_append, workBytes_length]
      rfl
    have hlanes : (Lane.all.flatMap (statLaneBytes s)).length = 24 := by
      simp [Lane.all, hlane]
    simp only [List.length_append, hlanes]
    rfl
  · rw [hdata]
    exact (stat_isRead False p).reply n hfree rfl (fun _ _ _ => rfl) (chunked_stat p s)

end Sys2Proof.Machine
end

section
/-! Draining (O24): the fields of a drain record, and the streaming of DNEXT. -/

namespace Sys2Proof.Machine

/-! ## The fields of an entry and of a drain record (R194, R195) -/

theorem bytes3_eq (v : Sample) : bytes3 v = fieldBytes 3 v.toNat := by rw [fieldBytes_three, BitVec.ofNat_toNat, BitVec.setWidth_eq]

theorem bytes4_eq (v : Word32) : bytes4 v = fieldBytes 4 v.toNat := by rw [fieldBytes_four, BitVec.ofNat_toNat, BitVec.setWidth_eq]

theorem bytes5_eq (v : Position) : bytes5 v = fieldBytes 5 v.toNat := by rw [fieldBytes_five, BitVec.ofNat_toNat, BitVec.setWidth_eq]

theorem entryItem_eq (e : Entry) : entryItem e = e.toBytes := by
  have hkind : fieldBytes 1 (kindCode e.kind) = [e.kind.code] := by cases e.kind <;> rfl
  have hlane : fieldBytes 1 (match e.lane with
      | none => 0
      | some l => l.toNat + 128) = [e.laneByte] := by
    unfold Entry.laneByte
    cases e.lane with
    | none => rfl
    | some l => cases l <;> rfl
  have hdecision : fieldBytes 1
      ((match e.decision with
          | none => 0
          | some .repair => 1
          | some .pass => 2
          | some .hold => 3) +
        (if e.decidedBy = .review then 16 else 0) + (if e.fixed = true then 128 else 0)) = [e.decisionByte] := by
    unfold Entry.decisionByte
    cases e.decidedBy <;> cases e.fixed <;> cases e.decision with
    | none => rfl
    | some d => cases d <;> rfl
  have htail : fieldBytes 4 (match e.kind, e.reported with
      | .click, _ => e.peak.getD 0
      | .slip, some r => r.reported.toNat
      | _, _ => 0) = bytes4 e.tailWord := by
    unfold Entry.tailWord
    cases e.kind with
    | click => exact fieldBytes_four _
    | slip =>
      cases e.reported with
      | none => exact (bytes4_eq 0#32).symm
      | some r => exact (bytes4_eq r.reported).symm
    | void | gap | splice => cases e.reported <;> exact (bytes4_eq 0#32).symm
  have hthree : [e.kind.code, e.laneByte, e.decisionByte] = [e.kind.code] ++ [e.laneByte] ++ [e.decisionByte] := rfl
  unfold entryItem Entry.toBytes
  rw [hthree]
  simp only [bytes5_eq, ← fieldBytes_two, List.append_assoc]
  exact congrArg₂ _ rfl (congrArg₂ _ hkind (congrArg₂ _ hlane (congrArg₂ _ hdecision (congrArg₂ _ rfl (congrArg₂ _ rfl htail)))))

theorem sampleFields_eq (s : State) (b : Block) (a : SampleArray) : sampleFields s b a = arrayBytes s b a := by
  unfold sampleFields arrayBytes
  simp only [bytes3_eq]

theorem filmByte_eq (b : Block) :
    fieldBytes 1 ((if b.filmGap = true then 1 else 0) + (if b.filmSlip = true then 2 else 0) +
      (if b.filmLink = true then 4 else 0)) = [b.filmByte] := by
  unfold Block.filmByte
  cases b.filmGap <;> cases b.filmSlip <;> cases b.filmLink <;> rfl

theorem peakPresence_eq (b : Block) :
    fieldBytes 1 ((if ((b.lanes.get .lane0).bind (fun r => r.inputPeak)).isSome = true then 1 else 0) +
      (if ((b.lanes.get .lane1).bind (fun r => r.inputPeak)).isSome = true then 2 else 0) +
      (if ((b.lanes.get .lane2).bind (fun r => r.inputPeak)).isSome = true then 4 else 0) +
      (if ((b.lanes.get .lane3).bind (fun r => r.inputPeak)).isSome = true then 8 else 0)) = [peakPresence b] := by
  have hbit : ∀ (o : Option Nat) (v : Nat), (if o.isSome = true then v else 0) = match o with
      | some _ => v
      | none => 0 := by
    intro o v
    cases o <;> rfl
  have hassoc : ∀ x y z w : Nat, x + y + z + w = x + (y + (z + (w + 0))) := by omega
  rw [fieldBytes_one, hassoc]
  exact congrArg (fun v => [BitVec.ofNat 8 v]) (congrArg₂ _ (hbit _ _) (congrArg₂ _ (hbit _ _) (congrArg₂ _ (hbit _ _)
    (congrArg₂ _ (hbit _ _) rfl))))

theorem entriesOf_eq (s : State) (b : Block) :
    s.catalogue.entries.filter (fun e => blockNumberOf s e.start = (b.number : Int)) = entriesOf s b :=
  List.filter_congr (fun e _ => by rw [startsIn, Bool.eq_iff_iff, decide_eq_true_iff, beq_iff_eq])

theorem headerFields_eq (s : State) (x : Nat) (b : Block) : headerFields s x b = drainHeader s x b := by
  have hmask : fieldBytes 1 s.pass.laneMask.toNat = [s.pass.laneMask.zeroExtend 8] := by
    rw [fieldBytes_one]
    exact congrArg (fun v => [v]) (BitVec.eq_of_toNat_eq (by rw [BitVec.toNat_setWidth, BitVec.toNat_ofNat]))
  have hcounts : Lane.all.flatMap (fun l => fieldBytes 1 (((b.lanes.get l).map (fun r => r.unlisted)).getD 0)) =
      Lane.all.map (fun l => BitVec.ofNat 8 (((b.record l).map (fun r => r.unlisted)).getD 0)) := by
    simp only [fieldBytes_one]
    rfl
  have hpeaks : ∀ f : Lane → Nat, Lane.all.flatMap (fun l => fieldBytes 3 (f l)) = Lane.all.flatMap (fun l => peakBytes (f l)) :=
    fun f => congrArg (List.flatMap · Lane.all) (funext fun l => fieldBytes_three (f l))
  have htwo : [1#8, BitVec.ofNat 8 x] = fieldBytes 1 1 ++ fieldBytes 1 x := by rw [fieldBytes_one, fieldBytes_one]; rfl
  have hthree : [s.pass.laneMask.zeroExtend 8, b.filmByte, peakPresence b] =
      [s.pass.laneMask.zeroExtend 8] ++ [b.filmByte] ++ [peakPresence b] := rfl
  unfold headerFields drainHeader
  rw [htwo, hthree]
  simp only [entriesOf_eq, bytes5_eq, ← fieldBytes_two, ← fieldBytes_four, List.append_assoc]
  exact congrArg₂ _ rfl (congrArg₂ _ rfl (congrArg₂ _ rfl (congrArg₂ _ rfl (congrArg₂ _ rfl (congrArg₂ _ hmask
    (congrArg₂ _ (filmByte_eq b) (congrArg₂ _ (peakPresence_eq b) (congrArg₂ _ hcounts (congrArg₂ _ (hpeaks _)
      (congrArg₂ _ (hpeaks _) rfl))))))))))

theorem entry_toBytes_length (e : Entry) : e.toBytes.length = 16 := rfl

theorem drainHeader_length (s : State) (x : Nat) (b : Block) : (drainHeader s x b).length = 46 := rfl

theorem length_flatMap_const {β : Type} {n : Nat} {f : β → List Byte} (h : ∀ a, (f a).length = n) (l : List β) :
    (l.flatMap f).length = l.length * n := by
  rw [List.length_flatMap, funext h, List.map_const', List.sum_replicate, smul_eq_mul]

theorem arrayBytes_length (s : State) (b : Block) (a : SampleArray) :
    (arrayBytes s b a).length = b.fill * ((activeLanes s).length * 3) := by
  have hlanes : ∀ o, ((activeLanes s).flatMap (fun l => bytes3 (readSample s b a l o))).length = (activeLanes s).length * 3 :=
    fun o => length_flatMap_const (f := fun l => bytes3 (readSample s b a l o)) (fun _ => rfl) _
  rw [arrayBytes, length_flatMap_const hlanes, List.length_range]

/-- The length that a drain read takes for its record is the record's length (R183, R184). -/
theorem drainRecord_length (s : State) (x : Nat) (b : Block) : (drainRecord s x b).length = recordLength s x b := by
  rw [drainRecord, recordLength, List.length_append, List.length_append, length_flatMap_const entry_toBytes_length,
    length_flatMap_const (arrayBytes_length s b), drainHeader_length]
  change 46 + _ + _ = 46 + _ + _
  ring

theorem selectorArrays_length {x : Nat} (h : x ≤ 3) :
    (selectorArrays x).length = if x = 0 then 1 else if x = 3 then 3 else 2 := by
  interval_cases x <;> rfl

theorem drainRecord_fields (s : State) {x : Nat} (b : Block) (h : x ≤ 3) :
    drainRecord s x b =
      headerFields s x b ++
        (s.catalogue.entries.filter (fun e => blockNumberOf s e.start = (b.number : Int))).flatMap entryItem ++
        sampleFields s b .restored ++ (if x = 1 ∨ x = 3 then sampleFields s b .original else []) ++
        (if 2 ≤ x then sampleFields s b .mended else []) := by
  have hitems : entryItem = Entry.toBytes := funext entryItem_eq
  rw [headerFields_eq, entriesOf_eq, hitems, sampleFields_eq, sampleFields_eq, sampleFields_eq, drainRecord]
  interval_cases x <;> simp [selectorArrays]

/-! ## A drain read (R182, R185, R187) -/

theorem DrainRead.bound_bind (s : State) (d : DrainRead) : (d.bind s).bound ≠ .unchosen := by
  unfold DrainRead.bind
  cases h : d.bound with
  | unchosen => cases drainHead s <;> exact fun h => (nomatch h)
  | nothing => exact fun h' => (nomatch h.symm.trans h')
  | block k => exact fun h' => (nomatch h.symm.trans h')

theorem DrainRead.bind_of_chosen {s : State} {d : DrainRead} (h : d.bound ≠ .unchosen) : d.bind s = d := by
  unfold DrainRead.bind
  cases hb : d.bound with
  | unchosen => exact absurd hb h
  | nothing => rfl
  | block k => rfl

/-- Data byte k of a DNEXT, its read being created and not refused. -/
theorem dnextItem_of_drain {p : Port} {t : State} {d : DrainRead} (h : (t.ports.get p).drain = some d) (k : Nat) :
    dnextItem p k t =
      (t.mapPort p (fun q => { q with drain := some { d.bind t with shifted := min (d.bind t).length (k + 1) } }),
        [((d.bind t).record t).getD k 0#8]) := by
  simp only [dnextItem, h]

/-- A port with a drain read. -/
def PortState.draining (q : PortState) (d : DrainRead) : PortState := { q with drain := some d }

/-- The part while a DNEXT streams, after k data bytes from byte `first` on. -/
def dnextState (p : Port) (first : Nat) (d : DrainRead) (t : State) (k : Nat) : State :=
  if k = 0 then t
  else t.mapPort p (fun q => q.draining { d.bind t with shifted := min (d.bind t).length (first + k) })

theorem dnextState_drain {p : Port} {t : State} {d : DrainRead} (h : (t.ports.get p).drain = some d) (first k : Nat) :
    ((dnextState p first d t k).ports.get p).drain =
      if k = 0 then some d else some { d.bind t with shifted := min (d.bind t).length (first + k) } := by
  unfold dnextState
  split
  · exact h
  · rw [State.mapPort_ports, PerPort.get_set_self]
    rfl

theorem dnextState_kept (p : Port) (first : Nat) (d : DrainRead) (t : State) (k : Nat) :
    ((dnextState p first d t k).ports.get p).frame = (t.ports.get p).frame ∧
      ((dnextState p first d t k).ports.get p).received = (t.ports.get p).received ∧
      ((dnextState p first d t k).ports.get p).verdict = (t.ports.get p).verdict := by
  unfold dnextState
  split
  · exact ⟨rfl, rfl, rfl⟩
  · rw [State.mapPort_ports, PerPort.get_set_self]
    exact ⟨rfl, rfl, rfl⟩

/-- What a DNEXT streams: the bytes of the record of its bound block (R182, R184). -/
theorem streams_dnext {p : Port} {t : State} {d : DrainRead} {x : Byte} (hdrain : (t.ports.get p).drain = some d)
    (hverdict : (t.ports.get p).verdict = .done) (hreceived : (t.ports.get p).received = Request.dnext.code :: byteArg x)
    (first count : Nat) :
    Streams (readSource byteArgOf dnextData) p first count (dnextState p first d t)
      (fun k => dnextState p first d t (k + 1)) (fun k => [((d.bind t).record t).getD (first + k) 0#8]) := by
  have hsource : ∀ k j m b i e,
      (readSource byteArgOf dnextData).item p j ((dnextState p first d t k).mapPort p (fun q => q.pulsed m b i e)) =
          dnextItem p j ((dnextState p first d t k).mapPort p (fun q => q.pulsed m b i e)) ∧
        (readSource byteArgOf dnextData).shifted p j ((dnextState p first d t k).mapPort p (fun q => q.pulsed m b i e)) =
          (dnextState p first d t k).mapPort p (fun q => q.pulsed m b i e) := by
    intro k j m b i e
    obtain ⟨-, hr, hv⟩ := dnextState_kept p first d t k
    exact readSource_item (data := dnextData) (dec := byteArgOf) (a := x) (by rw [get_mapPort_pulsed]; exact hv.trans hverdict)
      (by rw [receivedArgs, get_mapPort_pulsed]; exact congrArg (fun l => byteArgOf l.tail) (hr.trans hreceived)) j
  refine ⟨fun k _ _ m b i e => ?_, fun k _ h => absurd ?_ h, fun k _ m b i e => (hsource (k + 1) (first + k) m b i e).2⟩
  · rw [(hsource k (first + k) m b i e).1]
    have hd := dnextState_drain hdrain first k
    by_cases hk : k = 0
    · rw [if_pos hk] at hd
      rw [dnextItem_of_drain (d := d) (by rw [get_mapPort_pulsed]; exact hd), hk]
      refine Prod.ext ?_ rfl
      dsimp only [dnextState]
      rw [if_pos rfl, if_neg (Nat.succ_ne_zero 0), State.mapPort_mapPort, State.mapPort_mapPort]
      rfl
    · rw [if_neg hk] at hd
      have hbind : ∀ u, ({ d.bind t with shifted := min (d.bind t).length (first + k) } : DrainRead).bind u =
          { d.bind t with shifted := min (d.bind t).length (first + k) } := fun u =>
        DrainRead.bind_of_chosen (s := u) (d.bound_bind t)
      rw [dnextItem_of_drain (by rw [get_mapPort_pulsed]; exact hd), hbind]
      unfold dnextState
      rw [if_neg hk, if_neg (Nat.succ_ne_zero k)]
      refine Prod.ext ?_ rfl
      dsimp only
      rw [State.mapPort_mapPort, State.mapPort_mapPort, State.mapPort_mapPort]
      rfl
  · exact streamRest_of_singles (f := fun k => ((d.bind t).record t).getD (first + k) 0#8) (fun _ => rfl) k

/-- The clock pulses of a DNEXT from a byte boundary on, its status byte having been driven. -/
theorem dnext_pulses {p : Port} {s : State} {d : DrainRead} {x : Byte} {first : Nat}
    (hdrain : (s.ports.get p).drain = some d) (hverdict : (s.ports.get p).verdict = .done)
    (hreceived : (s.ports.get p).received = Request.dnext.code :: byteArg x) (hitem : (s.ports.get p).item = [])
    (hpulses : (s.ports.get p).pulses = 2 * (first + 1)) (n : Nat) :
    ∃ c, shiftNibbles (readSource byteArgOf dnextData) p n s =
      (dnextState p first d s ((n + 1) / 2)).mapPort p (fun q =>
        q.pulsed (2 * (first + 1) + n) c []
          ((s.ports.get p).driven ++
            (List.range n).map (fun i => nibbleOf (((d.bind s).record s).getD (first + i / 2) 0#8) i))) := by
  have hself : s = (dnextState p first d s 0).mapPort p (fun q =>
      q.pulsed (2 * (first + 1)) (s.ports.get p).byte [] (s.ports.get p).driven) := by
    have hq := pulsed_self hpulses (d := (s.ports.get p).driven) rfl
    rw [hitem] at hq
    change s = s.mapPort p _
    rw [State.mapPort, hq, PerPort.set_get]
  obtain ⟨c, hc⟩ := (streams_dnext hdrain hverdict hreceived first n).shift (s.ports.get p).byte (s.ports.get p).driven n
    (by omega)
  have hstate : (if n % 2 = 0 then dnextState p first d s (n / 2) else dnextState p first d s (n / 2 + 1)) =
      dnextState p first d s ((n + 1) / 2) := by
    split
    · rw [show (n + 1) / 2 = n / 2 by omega]
    · rw [show (n + 1) / 2 = n / 2 + 1 by omega]
  have hbytes := streamByte_of_singles (f := fun k => ((d.bind s).record s).getD (first + k) 0#8) (fun _ => rfl)
  refine ⟨c, ?_⟩
  rw [← hself, hstate, streamRest_of_singles (f := fun k => ((d.bind s).record s).getD (first + k) 0#8) (fun _ => rfl)] at hc
  rw [hc]
  unfold streamNibbles
  simp only [hbytes]

/-- The pulses of a status byte leave the drain read as it is. -/
theorem status_pulses_drain {α : Type} (dec : List Byte → Option α) (data : α → Source) (p : Port) (n : Nat) (s : State)
    (h : (s.ports.get p).pulses + n ≤ 2) :
    ((shiftNibbles (readSource dec data) p n s).ports.get p).drain = (s.ports.get p).drain := by
  induction n generalizing s with
  | zero => rfl
  | succ n ih =>
    have hone : ∃ b i e, shiftNibble (readSource dec data) p s =
        s.mapPort p (fun q => q.pulsed ((s.ports.get p).pulses + 1) b i e) := by
      obtain h0 | h1 : (s.ports.get p).pulses = 0 ∨ (s.ports.get p).pulses = 1 := by omega
      · exact ⟨_, _, _, by rw [shiftNibble_first _ _ _ h0, h0]⟩
      · exact ⟨_, _, _, by rw [shiftNibble_second _ _ _ h1, h1]⟩
    obtain ⟨b, i, e, hone⟩ := hone
    have hleft : (s.ports.get p).pulses + 1 + n ≤ 2 := by omega
    rw [shiftNibbles, hone, ih _ (by rw [get_mapPort_pulsed]; exact hleft), get_mapPort_pulsed]
    rfl

/-! ## Whole frames of DNEXT -/

/-- The end of a read's frame on a port that its frame alone has changed. -/
theorem finishRead_mapPort {s : State} {p : Port} {r : Request} {f : PortState → PortState} {v : Result} {e : List Nibble}
    (hframe : (f (s.ports.get p)).frame = .replying) (hreceived : (f (s.ports.get p)).received.head? = some r.code)
    (hv : (f (s.ports.get p)).verdict = v) (hend : (f (s.ports.get p)).endFrame v = (s.ports.get p).afterFrame v e) :
    finishRead p r (s.mapPort p f) = s.frameEnded p v e := by
  have hport : (s.mapPort p f).ports.get p = f (s.ports.get p) := PerPort.get_set_self ..
  rw [finishRead, if_pos (inFrame_of (by rw [hport]; exact hframe) (by rw [hport]; exact hreceived)), hport, hv, endFrame,
    State.mapPort_mapPort, State.mapPort, hend]
  rfl

/-- A port that has received a DNEXT, with the result of its check and the drain read that it made. -/
def PortState.dnext (q : PortState) (x : Byte) (v : Result) (d : Option DrainRead) : PortState :=
  { q.startFrame .replying (Request.dnext.code :: byteArg x) none with verdict := v, drain := d }

theorem checkDnext_eq (p : Port) (x : Byte) (s : State) :
    checkDnext p x s =
      if acceptance s p .dnext 0#8 ≠ .done then (s, acceptance s p .dnext 0#8)
      else if x.toNat ≤ 3 then (s.mapPort p (fun q => q.draining ⟨x.toNat, .unchosen, 0, 0, false⟩), .done)
      else (s, .arg) := by
  unfold checkDnext
  cases h : acceptance s p .dnext 0#8 <;> simp [PortState.draining]

theorem receiveRead_dnext (p : Port) (x : Byte) (s : State) :
    receiveRead p .dnext byteArg (checkDnext p) x s =
      s.mapPort p (fun q =>
        if acceptance s p .dnext 0#8 ≠ .done then q.dnext x (acceptance s p .dnext 0#8) none
        else if x.toNat ≤ 3 then q.dnext x .done (some ⟨x.toNat, .unchosen, 0, 0, false⟩)
        else q.dnext x .arg none) := by
  have hacc : acceptance (receiveRequest p .dnext (byteArg x) s) p .dnext 0#8 = acceptance s p .dnext 0#8 := rfl
  unfold receiveRead
  dsimp only
  rw [checkDnext_eq, hacc]
  split
  · rw [receiveRequest, State.mapPort_mapPort]
    rfl
  · split
    · rw [receiveRequest, State.mapPort_mapPort, State.mapPort_mapPort]
      rfl
    · rw [receiveRequest, State.mapPort_mapPort]
      rfl

theorem statusByte_dnext (s : State) (p : Port) (x : Byte) (v : Result) (d : Option DrainRead) :
    statusByte (s.mapPort p (fun q => q.dnext x v d)) p = statusByte s p :=
  statusByte_congr rfl (by rw [State.mapPort_ports, PerPort.get_set_self]; rfl)
    (by rw [State.mapPort_ports, PerPort.get_set_self]; rfl) (by rw [State.mapPort_ports, PerPort.get_set_self]; rfl)

/-- The status byte, and data bytes given one by one. -/
theorem replyNibbles_of_singles {s : State} {p : Port} {chunk : Nat → List Byte} {bytes : List Byte}
    (h : ∀ k, chunk k = [bytes.getD k 0#8]) (n : Nat) :
    replyNibbles (replyByte (statusByte s p) chunk) n = readReply s p bytes n := by
  refine congrArg (replyNibbles · n) (funext fun i => ?_)
  cases i with
  | zero => rfl
  | succ i =>
    rw [replyByte, if_neg (Nat.succ_ne_zero i), Nat.add_sub_cancel, List.getD_cons_succ, streamByte_of_singles h]

/-- A DNEXT that its check refuses: zeros after the status byte (R170, R182). -/
theorem dnext_refused {s : State} {p : Port} {x : Byte} {v : Result} (n : Nat) (hfree : s.portFree p) (hv : v ≠ .done)
    (hreceive : receiveRead p .dnext byteArg (checkDnext p) x s = s.mapPort p (fun q => q.dnext x v none)) :
    exec (.dnext p (.whole x n)) s = .next (settle (s.frameEnded p v (readReply s p [] n))) := by
  have hport : ∀ m b i e, ((s.mapPort p (fun q => q.dnext x v none)).mapPort p (fun q => q.pulsed m b i e)).ports.get p =
      ((s.ports.get p).dnext x v none).pulsed m b i e := fun m b i e => by
    rw [get_mapPort_pulsed, State.mapPort_ports, PerPort.get_set_self]
  have hstreams : Streams (readSource byteArgOf dnextData) p 0 n (fun _ => s.mapPort p (fun q => q.dnext x v none))
      (fun _ => s.mapPort p (fun q => q.dnext x v none)) (fun k => [([] : List Byte).getD k 0#8]) := by
    have hsource := fun k m b i e => readSource_refused (data := dnextData) (dec := byteArgOf) (p := p)
      (t := (s.mapPort p (fun q => q.dnext x v none)).mapPort p (fun q => q.pulsed m b i e)) (by rw [hport]; exact hv) k
    exact ⟨fun k _ _ m b i e => (hsource _ m b i e).1, fun _ _ _ => rfl, fun k _ m b i e => (hsource _ m b i e).2⟩
  have hfinish : ∀ m b i e, finishRead p .dnext ((s.mapPort p (fun q => q.dnext x v none)).mapPort p
      (fun q => q.pulsed m b i e)) = s.frameEnded p v e := by
    intro m b i e
    rw [State.mapPort_mapPort]
    exact finishRead_mapPort rfl rfl rfl rfl
  rw [(dnext_isRead False p).whole x n hfree, hreceive, ← replyNibbles_of_singles (fun _ => rfl), ← statusByte_dnext s p x v none]
  obtain ⟨m, b, i, h | ⟨-, h⟩⟩ := hstreams.reply (n := n) (by rw [State.mapPort_ports, PerPort.get_set_self]; rfl)
    (by rw [State.mapPort_ports, PerPort.get_set_self]; rfl) (by omega)
  · rw [ite_self] at h
    rw [h, hfinish]
  · rw [h, hfinish]

/-- A DNEXT that passes its check: the record of the drain head as it stands, or zeros (R182). -/
theorem dnext_streams {s : State} {p : Port} {x : Byte} (n : Nat) (hfree : s.portFree p)
    (hreceive : receiveRead p .dnext byteArg (checkDnext p) x s =
      s.mapPort p (fun q => q.dnext x .done (some ⟨x.toNat, .unchosen, 0, 0, false⟩))) :
    exec (.dnext p (.whole x n)) s =
      .next (settle (s.frameEnded p .done
        (readReply s p ((DrainRead.bind s ⟨x.toNat, .unchosen, 0, 0, false⟩).record s) n))) := by
  set d : DrainRead := ⟨x.toNat, .unchosen, 0, 0, false⟩ with hd
  set t := s.mapPort p (fun q => q.dnext x .done (some d)) with ht
  have hport : t.ports.get p = (s.ports.get p).dnext x .done (some d) := PerPort.get_set_self ..
  have hstreams := streams_dnext (p := p) (t := t) (d := d) (x := x) (by rw [hport]; rfl) (by rw [hport]; rfl)
    (by rw [hport]; rfl) 0 n
  have hfinish : ∀ k m b i e, finishRead p .dnext ((dnextState p 0 d t k).mapPort p (fun q => q.pulsed m b i e)) =
      s.frameEnded p .done e := by
    intro k m b i e
    unfold dnextState
    split
    · rw [ht, State.mapPort_mapPort]
      exact finishRead_mapPort rfl rfl rfl rfl
    · rw [ht, State.mapPort_mapPort, State.mapPort_mapPort]
      exact finishRead_mapPort rfl rfl rfl rfl
  have hbytes : ∀ k, [((d.bind t).record t).getD (0 + k) 0#8] = [((d.bind s).record s).getD k 0#8] := fun k => by
    rw [Nat.zero_add]
    rfl
  have hstatus : statusByte t p = statusByte s p := statusByte_dnext s p x .done (some d)
  rw [(dnext_isRead False p).whole x n hfree, hreceive, ← replyNibbles_of_singles hbytes, ← hstatus]
  obtain ⟨m, b, i, h | ⟨-, h⟩⟩ := hstreams.reply (n := n) (by rw [dnextState, if_pos rfl, hport]; rfl)
    (by rw [dnextState, if_pos rfl, hport]; rfl) (by omega)
  · rw [← apply_ite (dnextState p 0 d t)] at h
    have h' := congrArg (finishRead p .dnext) h
    rw [hfinish] at h'
    exact congrArg (fun u => Host.Outcome.next (settle u)) h'
  · have h' := congrArg (finishRead p .dnext) h
    rw [hfinish] at h'
    exact congrArg (fun u => Host.Outcome.next (settle u)) h'

/-! ## DNEXT in parts -/

theorem acceptance_dnext (s : State) (p : Port) (x : Byte) :
    acceptance s p .dnext x = if s.rights.drain = p then .done else .denied := by
  rw [acceptance_eq]
  by_cases h : s.rights.drain = p
  · simp [requiredResource, Rights.owner, h, acceptedIn]
  · simp [requiredResource, Rights.owner, h]

/-- The rise of select at the end of a DNEXT. -/
theorem dnext_finish {s : State} {p : Port} {x : Byte} (hframe : (s.ports.get p).frame = .replying)
    (hreceived : (s.ports.get p).received = Request.dnext.code :: byteArg x) (hverdict : (s.ports.get p).verdict = .done) :
    ∃ t, exec (.dnext p .finish) s = .next t ∧ (t.ports.get p).lastResult = .done := by
  refine ⟨_, (dnext_isRead False p).exec_eq .finish s, ?_⟩
  rw [settle_port, readFrame, finishRead, if_pos (inFrame_of hframe (congrArg List.head? hreceived)), hverdict, endFrame,
    State.mapPort_ports, PerPort.get_set_self]
  rfl

/-- Clock pulses of a DNEXT, from a byte boundary on: the state, the port's reply and its drain read. -/
theorem dnext_reply {s : State} {p : Port} {x : Byte} {d e : DrainRead} {record : List Byte} {n : Nat}
    (hframe : (s.ports.get p).frame = .replying) (hreceived : (s.ports.get p).received = Request.dnext.code :: byteArg x)
    (hverdict : (s.ports.get p).verdict = .done) (hitem : (s.ports.get p).item = []) (hdrain : (s.ports.get p).drain = some d)
    (hstatus : 2 ≤ (s.ports.get p).pulses) (heven : (s.ports.get p).pulses % 2 = 0) (hn : 1 ≤ n)
    (hbind : d.bind s = e) (hrecord : e.record s = record) :
    ∃ t, exec (.dnext p (.reply n)) s = .next t ∧
      (t.ports.get p).driven = (s.ports.get p).driven ++ (List.range n).map (fun i =>
        nibbleOf (record.getD (((s.ports.get p).pulses + i) / 2 - 1) 0#8) ((s.ports.get p).pulses + i)) ∧
      (t.ports.get p).drain = some { e with shifted := min e.length (((s.ports.get p).pulses + n - 1) / 2) } ∧
      (t.ports.get p).pulses = (s.ports.get p).pulses + n ∧ (t.ports.get p).frame = .replying ∧
      (t.ports.get p).received = (s.ports.get p).received ∧ (t.ports.get p).verdict = .done ∧ (t.ports.get p).item = [] := by
  subst hbind hrecord
  obtain ⟨first, hpulses⟩ : ∃ first, (s.ports.get p).pulses = 2 * (first + 1) :=
    ⟨(s.ports.get p).pulses / 2 - 1, by omega⟩
  obtain ⟨c, hshift⟩ := dnext_pulses hdrain hverdict hreceived hitem hpulses n
  have hcount : (n + 1) / 2 ≠ 0 := by omega
  have hexec : exec (.dnext p (.reply n)) s =
      completed (shiftNibbles (readSource byteArgOf dnextData) p n s) := by
    rw [(dnext_isRead False p).exec_eq, readFrame, if_pos (inFrame_of hframe (congrArg List.head? hreceived))]
  have hport : (shiftNibbles (readSource byteArgOf dnextData) p n s).ports.get p =
      ((s.ports.get p).draining
        { d.bind s with shifted := min (d.bind s).length (first + (n + 1) / 2) }).pulsed (2 * (first + 1) + n) c []
          ((s.ports.get p).driven ++
            (List.range n).map (fun i => nibbleOf (((d.bind s).record s).getD (first + i / 2) 0#8) i)) := by
    rw [hshift, get_mapPort_pulsed, dnextState, if_neg hcount, State.mapPort_ports, PerPort.get_set_self]
  have hindex : ∀ i, (2 * (first + 1) + i) / 2 - 1 = first + i / 2 := fun i => by omega
  have hparity : ∀ b i, nibbleOf b (2 * (first + 1) + i) = nibbleOf b i := fun b i => by
    rw [← nibbleOf_mod b i, ← nibbleOf_mod b (2 * (first + 1) + i), Nat.mul_add_mod]
  refine ⟨_, hexec, ?_⟩
  rw [settle_port, hport, hpulses]
  simp only [hindex, hparity, show (2 * (first + 1) + n - 1) / 2 = first + (n + 1) / 2 by omega]
  exact ⟨rfl, rfl, rfl, hframe, rfl, hverdict, rfl⟩

/-- Settles O24. -/
theorem dnextStreamsTheHeadRecord : Obligations.DnextStreamsTheHeadRecord := by
  have hrecord : ∀ (s : State) (d : DrainRead) (k : Nat) (b : Block) (len : Nat), blockNumbered s k = some b →
      ({ d with bound := .block k, length := len } : DrainRead).record s =
        if d.cut = true then [] else drainRecord s d.selector b := by
    intro s d k b len hb
    cases d.cut <;> simp [DrainRead.record, hb]
  have haccept : ∀ (s : State) (p : Port) (x : Byte), s.rights.drain = p → x.toNat ≤ 3 →
      receiveRead p .dnext byteArg (checkDnext p) x s =
        s.mapPort p (fun q => q.dnext x .done (some ⟨x.toNat, .unchosen, 0, 0, false⟩)) := by
    intro s p x hright hx
    simp only [receiveRead_dnext, acceptance_dnext, if_pos hright, ne_eq, not_true_eq_false, if_false, if_pos hx]
  refine ⟨?_, ?_, ?_, ?_, ?_, ?_, ?_⟩
  · intro s p x n b hfree hright hx hhead hnumbered
    have hbind : DrainRead.bind s ⟨x.toNat, .unchosen, 0, 0, false⟩ =
        ⟨x.toNat, .block b.number, recordLength s x.toNat b, 0, false⟩ := by
      simp [DrainRead.bind, hhead]
    rw [dnext_streams n hfree (haccept s p x hright hx), hbind]
    simp [DrainRead.record, hnumbered]
  · intro s p x n hfree hright hx hhead
    have hbind : DrainRead.bind s ⟨x.toNat, .unchosen, 0, 0, false⟩ =
        ⟨x.toNat, .nothing, Config.drainHeaderBytes, 0, false⟩ := by
      simp [DrainRead.bind, hhead]
    rw [dnext_streams n hfree (haccept s p x hright hx), hbind]
    rfl
  · intro s p x n hfree hright
    refine dnext_refused n hfree (by decide) ?_
    simp [receiveRead_dnext, acceptance_dnext, hright]
  · intro s p x n hfree hright hx
    refine dnext_refused n hfree (by decide) ?_
    simp [receiveRead_dnext, acceptance_dnext, hright, Nat.not_le.2 hx]
  · intro s x b hx
    refine ⟨drainRecord_fields s b hx, ?_⟩
    rw [drainRecord_length, recordLength, selectorArrays_length hx]
    rfl
  · intro s p x hfree hright hx
    have hd : deselected s p = true := by simp [deselected, hfree]
    refine ⟨settle (receiveRead p .dnext byteArg (checkDnext p) x s), ?_, ?_⟩
    · rw [(dnext_isRead False p).exec_eq, readFrame, if_pos hd, completed]
    · rw [settle_port, haccept s p x hright hx, State.mapPort_ports, PerPort.get_set_self]
      exact ⟨rfl, rfl, rfl, rfl, rfl, rfl, rfl⟩
  · intro s p x d n
    dsimp only
    intro hframe hreceived hverdict hitem hdrain
    refine ⟨dnext_finish hframe hreceived hverdict, fun hstatus => ?_, fun hstatus heven hn => ?_⟩
    · refine ⟨_, (dnext_isRead False p).exec_eq (.reply n) s, ?_⟩
      rw [settle_port, readFrame, if_pos (inFrame_of hframe (congrArg List.head? hreceived)),
        status_pulses_drain _ _ _ _ _ hstatus, hdrain]
    · have hreply := fun e record => dnext_reply (e := e) (record := record) hframe hreceived hverdict hitem hdrain hstatus heven hn
      refine ⟨fun b hbound hhead hnumbered => ?_, fun hbound hhead => ?_, fun hbound => ?_, fun k b hbound hnumbered hcut => ?_,
        fun k hbound hcut => ?_⟩
      · refine hreply { d with bound := .block b.number, length := (drainRecord s d.selector b).length }
          (if d.cut = true then [] else drainRecord s d.selector b) ?_
          (hrecord s d b.number b _ hnumbered)
        rw [drainRecord_length]
        simp only [DrainRead.bind, hbound, hhead]
      · refine hreply { d with bound := .nothing, length := 46 } [] ?_ rfl
        simp only [DrainRead.bind, hbound, hhead, Config.drainHeaderBytes]
      · exact hreply d [] (DrainRead.bind_of_chosen (by simp [hbound])) (by simp [DrainRead.record, hbound])
      · exact hreply d (drainRecord s d.selector b) (DrainRead.bind_of_chosen (by simp [hbound]))
          (by simp [DrainRead.record, hbound, hcut, hnumbered])
      · exact hreply d [] (DrainRead.bind_of_chosen (by simp [hbound])) (by simp [DrainRead.record, hbound, hcut])

end Sys2Proof.Machine
end

section
/-! CWALK (O30): the cursor's walk, the items it streams, and where the cursor stands when the frame ends. -/

namespace Sys2Proof.Machine

/-! ## The walk of a cursor -/

/-- The target of a cursor after the item at a target has been driven whole (R71). -/
def walkStep (s : State) (d : Direction) (x : Option Nat) : Option Nat :=
  match x.bind (entryNumbered s) with
  | none => x
  | some e => (walkNext s e d).map (fun y => y.number)

/-- The target of a cursor after n items. -/
def walkAt (s : State) (d : Direction) (x : Option Nat) (n : Nat) : Option Nat := (walkStep s d)^[n] x

/-- The item at a target: the entry's bytes, or a filler. -/
def walkBytes (s : State) (x : Option Nat) : List Byte :=
  match x.bind (entryNumbered s) with
  | none => fillerItem
  | some e => e.toBytes

theorem walkAt_succ (s : State) (d : Direction) (x : Option Nat) (n : Nat) :
    walkAt s d x (n + 1) = walkStep s d (walkAt s d x n) := Function.iterate_succ_apply' ..

theorem entryItem_length (e : Entry) : (entryItem e).length = 16 := by
  rw [entryItem_eq]
  rfl

theorem walkBytes_length (s : State) (x : Option Nat) : (walkBytes s x).length = 16 := by
  unfold walkBytes
  split <;> rfl

theorem walkAt_none (s : State) (d : Direction) (n : Nat) : walkAt s d none n = none := Function.iterate_fixed rfl n

/-- Along a run of entries, each the next of the one before, the cursor stands at each in turn, and then at the entry that
follows the last. -/
theorem walkAt_run {s : State} {d : Direction} (e : Entry) (rest : List Entry)
    (hpresent : ∀ y ∈ e :: rest, entryNumbered s y.number = some y)
    (hchain : (e :: rest).IsChain (fun y z => walkNext s y d = some z)) (i : Nat) (hi : i ≤ rest.length + 1) :
    walkAt s d (some e.number) i =
      if i < rest.length + 1 then ((e :: rest)[i]?).map (fun y => y.number)
      else (((e :: rest).getLast?).bind (fun y => walkNext s y d)).map (fun y => y.number) := by
  have hstep : walkStep s d (some e.number) = (walkNext s e d).map (fun y => y.number) := by
    simp only [walkStep, Option.bind_some, hpresent e List.mem_cons_self]
  induction rest generalizing e i with
  | nil =>
    obtain rfl | rfl : i = 0 ∨ i = 1 := by simp at hi; omega
    · rfl
    · exact hstep
  | cons f rest ih =>
    cases i with
    | zero => simp [walkAt]
    | succ i =>
      obtain ⟨hnext, htail⟩ := List.isChain_cons_cons.1 hchain
      have hpresent' := fun y hy => hpresent y (List.mem_cons_of_mem _ hy)
      have hfirst : walkAt s d (some e.number) (i + 1) = walkAt s d (some f.number) i := by
        rw [walkAt, Function.iterate_succ_apply, hstep, hnext]
        rfl
      rw [hfirst, ih f hpresent' htail i (by simpa using hi)
        (by simp only [walkStep, Option.bind_some, hpresent' f List.mem_cons_self])]
      simp

/-! ## The states of a CWALK -/

/-- A port in a CWALK, the entry of the item under way copied. -/
def PortState.walking (q : PortState) (w : Option Entry) : PortState :=
  { q.startFrame .replying (Request.cwalk.code :: noArgs ()) none with walked := w }

/-- The part in a CWALK: the cursor's target and the copied entry. -/
def State.walking (s : State) (p : Port) (x : Option Nat) (w : Option Entry) : State :=
  (s.setCursor p ⟨x, (s.catalogue.cursors.get p).direction⟩).mapPort p (fun q => q.walking w)

/-- The part before data byte k of a CWALK whose cursor began at a target. -/
def walkBefore (s : State) (p : Port) (x : Option Nat) (k : Nat) : State :=
  let y := walkAt s (s.catalogue.cursors.get p).direction x (k / 16)
  s.walking p y (if k % 16 = 0 then none else y.bind (entryNumbered s))

/-- The part while data byte k is driven. -/
def walkDuring (s : State) (p : Port) (x : Option Nat) (k : Nat) : State :=
  let y := walkAt s (s.catalogue.cursors.get p).direction x (k / 16)
  s.walking p y (y.bind (entryNumbered s))

/-- The items of a CWALK. -/
def walkChunk (s : State) (d : Direction) (x : Option Nat) (k : Nat) : List Byte := walkBytes s (walkAt s d x (k / 16))

theorem State.walking_port (s : State) (p : Port) (x : Option Nat) (w : Option Entry) :
    (s.walking p x w).ports.get p = (s.ports.get p).walking w := PerPort.get_set_self ..

theorem State.walking_cursor (s : State) (p : Port) (x : Option Nat) (w : Option Entry) :
    (s.walking p x w).catalogue.cursors.get p = ⟨x, (s.catalogue.cursors.get p).direction⟩ := PerPort.get_set_self ..

/-- The first byte of an item: its entry, if any, is copied. -/
theorem walkItem_walking (s : State) (p : Port) (x : Option Nat) (v : Option Entry) (n : Nat) (b : Byte) (i : List Byte)
    (e : List Nibble) :
    walkItem p ((s.walking p x v).mapPort p (fun q => q.pulsed n b i e)) =
      ((s.walking p x (x.bind (entryNumbered s))).mapPort p (fun q => q.pulsed n b i e), walkBytes s x) := by
  have htarget : (((s.walking p x v).mapPort p (fun q => q.pulsed n b i e)).catalogue.cursors.get p).target.bind
      (entryNumbered ((s.walking p x v).mapPort p (fun q => q.pulsed n b i e))) = x.bind (entryNumbered s) :=
    congrArg (fun c : Cursor => c.target.bind (entryNumbered s)) (s.walking_cursor p x v)
  unfold walkItem walkBytes
  rw [htarget]
  unfold State.walking
  cases x.bind (entryNumbered s) <;>
    · dsimp only
      rw [State.mapPort_mapPort, State.mapPort_mapPort, State.mapPort_mapPort]
      rfl

theorem setCursor_setCursor (s : State) (p : Port) (c d : Cursor) : (s.setCursor p c).setCursor p d = s.setCursor p d := by
  rw [State.setCursor, State.setCursor, State.setCursor, PerPort.set_set]

/-- The cursor moved and the copied entry forgotten. -/
theorem walking_moved (s : State) (p : Port) (x y : Option Nat) (w : Option Entry) (n : Nat) (b : Byte) (i : List Byte)
    (e : List Nibble) :
    (((s.walking p x w).mapPort p (fun q => q.pulsed n b i e)).setCursor p
        ⟨y, (s.catalogue.cursors.get p).direction⟩).mapPort p (fun q => { q with walked := none }) =
      (s.walking p y none).mapPort p (fun q => q.pulsed n b i e) := by
  have hcommute : ((s.walking p x w).mapPort p (fun q => q.pulsed n b i e)).setCursor p
      ⟨y, (s.catalogue.cursors.get p).direction⟩ = (s.walking p y w).mapPort p (fun q => q.pulsed n b i e) :=
    congrArg (fun t => ((State.mapPort t p (fun q => q.walking w)).mapPort p (fun q => q.pulsed n b i e)))
      (setCursor_setCursor s p _ _)
  rw [hcommute, State.walking, State.walking, State.mapPort_mapPort, State.mapPort_mapPort, State.mapPort_mapPort]
  rfl

/-- The end of a byte of an item: the sixteenth moves the cursor. -/
theorem walkShifted_walking (s : State) (p : Port) (x : Option Nat) (k n : Nat) (b : Byte) (i : List Byte) (e : List Nibble) :
    walkShifted p k ((s.walking p x (x.bind (entryNumbered s))).mapPort p (fun q => q.pulsed n b i e)) =
      (if k % 16 = 15 then s.walking p (walkStep s (s.catalogue.cursors.get p).direction x) none
        else s.walking p x (x.bind (entryNumbered s))).mapPort p (fun q => q.pulsed n b i e) := by
  have hcursor : ∀ w, ((s.walking p x w).mapPort p (fun q => q.pulsed n b i e)).catalogue.cursors.get p =
      ⟨x, (s.catalogue.cursors.get p).direction⟩ := fun w => s.walking_cursor p x w
  unfold walkShifted
  split
  · rw [get_mapPort_pulsed, State.walking_port]
    unfold walkStep
    simp only [hcursor]
    cases x.bind (entryNumbered s) with
    | none => rfl
    | some y =>
      exact walking_moved s p x _ (some y) n b i e
  · rfl

/-- An item is under way at every byte but the sixteenth of each. -/
theorem streamRest_walk (s : State) (d : Direction) (x : Option Nat) (k : Nat) :
    streamRest (walkChunk s d x) k = [] ↔ k % 16 = 0 := by
  have hstart : ∀ m, streamRest (walkChunk s d x) (16 * m) = [] := by
    intro m
    induction m with
    | zero => rfl
    | succ m ih =>
      have hlast := streamRest_within rfl ih 15 (by rw [walkChunk, walkBytes_length]; omega)
      rw [show 16 * (m + 1) = 16 * m + 15 + 1 by omega, hlast, List.drop_eq_nil_iff, walkChunk, walkBytes_length]
  obtain hk | ⟨j, hj, hk⟩ : k = 16 * (k / 16) ∨ ∃ j < 15, k = 16 * (k / 16) + j + 1 := by
    by_cases h : k % 16 = 0
    · exact .inl (by omega)
    · exact .inr ⟨k % 16 - 1, by omega, by omega⟩
  · rw [hk]
    exact iff_of_true (hstart _) (Nat.mul_mod_right ..)
  · rw [hk, streamRest_within rfl (hstart _) j (by rw [walkChunk, walkBytes_length]; omega), List.drop_eq_nil_iff, walkChunk,
      walkBytes_length]
    omega

/-- The bytes of a CWALK. -/
theorem streamByte_walk (s : State) (d : Direction) (x : Option Nat) (k : Nat) :
    streamByte (walkChunk s d x) k = (walkBytes s (walkAt s d x (k / 16))).getD (k % 16) 0#8 := by
  have hchunk : walkChunk s d x (16 * (k / 16)) = walkBytes s (walkAt s d x (k / 16)) := by
    rw [walkChunk, Nat.mul_div_cancel_left _ (by omega)]
  have hbyte := streamByte_within hchunk ((streamRest_walk s d x _).2 (Nat.mul_mod_right ..)) (j := k % 16)
    (by rw [walkBytes_length]; omega)
  rwa [Nat.div_add_mod] at hbyte

/-- What a CWALK streams. -/
theorem streams_cwalk (s : State) (p : Port) (x : Option Nat) (count : Nat) :
    Streams (readSource noArgsOf cwalkData) p 0 count (walkBefore s p x) (walkDuring s p x)
      (walkChunk s (s.catalogue.cursors.get p).direction x) := by
  have hsource := fun y w k n b i e => readSource_item (data := cwalkData) (p := p) (dec := noArgsOf) (a := ())
    (t := (s.walking p y w).mapPort p (fun q => q.pulsed n b i e)) (by rw [get_mapPort_pulsed, State.walking_port]; rfl)
    (by rw [receivedArgs, get_mapPort_pulsed, State.walking_port]; rfl) k
  refine ⟨fun k _ _ n b i e => ?_, fun k _ hk => ?_, fun k _ n b i e => ?_⟩
  · rw [walkBefore, (hsource _ _ _ n b i e).1]
    exact walkItem_walking s p _ _ n b i e
  · rw [walkDuring, walkBefore, if_neg (fun h => hk ((streamRest_walk ..).2 h))]
  · rw [walkDuring, (hsource _ _ _ n b i e).2]
    refine (walkShifted_walking s p _ _ n b i e).trans (congrArg (fun t : State => t.mapPort p (fun q => q.pulsed n b i e)) ?_)
    rw [Nat.zero_add]
    by_cases h : k % 16 = 15
    · rw [if_pos h, walkBefore, if_pos (by omega), show (k + 1) / 16 = k / 16 + 1 by omega, walkAt_succ]
    · rw [if_neg h, walkBefore, if_neg (by omega), show (k + 1) / 16 = k / 16 by omega]

/-- A whole CWALK: what it drives, and where it leaves the cursor. -/
theorem cwalk_whole {s : State} {p : Port} (n : Nat) (hfree : s.portFree p) :
    let c := s.catalogue.cursors.get p
    exec (.cwalk p (.whole () n)) s =
      .next (settle ((s.setCursor p { c with target := walkAt s c.direction c.target ((n - 2) / 32) }).frameEnded p .done
        (replyNibbles (replyByte (statusByte s p) (walkChunk s c.direction c.target)) n))) := by
  intro c
  have hstart : s.reading p (Request.cwalk.code :: noArgs ()) = walkBefore s p c.target 0 :=
    (congrArg (fun t => State.mapPort t p (fun q => q.walking none)) (setCursor_same s p)).symm
  have hfinish : ∀ y w m b i e, finishRead p .cwalk ((s.walking p y w).mapPort p (fun q => q.pulsed m b i e)) =
      (s.setCursor p { c with target := y }).frameEnded p .done e := by
    intro y w m b i e
    rw [State.walking, State.mapPort_mapPort]
    exact finishRead_mapPort rfl rfl rfl rfl
  have hstatus : statusByte (walkBefore s p c.target 0) p = statusByte s p := by
    rw [← hstart, statusByte_reading]
  rw [(cwalk_isRead p).whole () n hfree, receiveRead_open, hstart]
  obtain ⟨m, b, i, h | ⟨hn, h⟩⟩ := (streams_cwalk s p c.target n).reply (n := n)
    (by rw [walkBefore, State.walking_port]; rfl) (by rw [walkBefore, State.walking_port]; rfl) (by omega)
  · rw [h, hstatus, show (n - 2) / 32 = (n - 2) / 2 / 16 by omega]
    unfold walkBefore walkDuring
    split <;> rw [hfinish]
  · rw [h, hstatus, walkBefore, hfinish, show (n - 2) / 32 = 0 / 16 by omega]

/-! ## The bytes driven -/

theorem replyNibbles_congr {f g : Nat → Byte} {n : Nat} (h : ∀ k, k < n → f (k / 2) = g (k / 2)) :
    replyNibbles f n = replyNibbles g n :=
  List.map_congr_left fun k hk => by rw [h k (List.mem_range.1 hk)]

/-- Byte k of items of 16 bytes each. -/
theorem getD_flatMap_entryItem (l : List Entry) (k : Nat) :
    (l.flatMap entryItem).getD k 0#8 = ((l[k / 16]?).map (fun y => (entryItem y).getD (k % 16) 0#8)).getD 0#8 := by
  induction l generalizing k with
  | nil => rfl
  | cons y l ih =>
    rw [List.flatMap_cons]
    by_cases hk : k < 16
    · rw [List.getD_append _ _ _ _ (by rw [entryItem_length]; exact hk), Nat.div_eq_of_lt hk, Nat.mod_eq_of_lt hk]
      rfl
    · obtain ⟨j, rfl⟩ : ∃ j, k = j + 16 := ⟨k - 16, by omega⟩
      rw [List.getD_append_right _ _ _ _ (by rw [entryItem_length]; omega), entryItem_length, Nat.add_sub_cancel, ih,
        Nat.add_div_right _ (by omega), Nat.add_mod_right]
      rfl

theorem fillerItem_getD (k : Nat) : fillerItem.getD k 0#8 = 0#8 := by
  rw [fillerItem, List.getD_eq_getElem?_getD, List.getElem?_replicate]
  split <;> rfl

/-- The nibbles of a CWALK are those of a list of entries, as far as its items are theirs and fillers after them. -/
theorem cwalk_nibbles {s : State} {p : Port} {d : Direction} {x : Option Nat} {run : List Entry} {n : Nat}
    (h : ∀ i, i * 32 + 2 < n → walkBytes s (walkAt s d x i) = ((run[i]?).map entryItem).getD fillerItem) :
    replyNibbles (replyByte (statusByte s p) (walkChunk s d x)) n = readReply s p (run.flatMap entryItem) n := by
  refine replyNibbles_congr fun k hk => ?_
  cases hbyte : k / 2 with
  | zero => rfl
  | succ j =>
    rw [replyByte, if_neg (Nat.succ_ne_zero j), Nat.add_sub_cancel, streamByte_walk, h (j / 16) (by omega), List.getD_cons_succ,
      getD_flatMap_entryItem]
    cases run[j / 16]? with
    | none => exact fillerItem_getD _
    | some y => rfl

/-- Settles O30, by the walk along the run. -/
theorem cwalkStreamsTheEntryAndMoves : Obligations.CwalkStreamsTheEntryAndMoves := by
  constructor
  · intro s p n e rest hfree cursor after run htarget hpresent hchain following ends
    have hafter : after = fun y => walkNext s y cursor.direction := by
      funext y
      cases hd : cursor.direction <;> simp [after, hd, walkNext]
    have hfollowing : following = (run.getLast?.bind (fun y => walkNext s y cursor.direction)).map (fun y => y.number) := by
      rw [← hafter]
    have hrun := walkAt_run (s := s) (d := cursor.direction) e rest hpresent (by rw [hafter] at hchain; exact hchain)
    have hlength : run.length = rest.length + 1 := rfl
    have hwithin : ∀ i, i < run.length →
        walkBytes s (walkAt s cursor.direction cursor.target i) = ((run[i]?).map entryItem).getD fillerItem := by
      intro i hi
      rw [htarget, hrun i (by omega), if_pos (by omega), walkBytes]
      obtain ⟨y, hy⟩ : ∃ y, run[i]? = some y := ⟨run[i], List.getElem?_eq_getElem hi⟩
      have hy' : (e :: rest)[i]? = some y := hy
      rw [hy', Option.map_some, Option.bind_some, hpresent y (List.mem_of_getElem? hy)]
      exact (entryItem_eq y).symm
    have hends : ∀ x, walkAt s cursor.direction cursor.target ((n - 2) / 32) = x →
        (∀ i, i * 32 + 2 < n →
          walkBytes s (walkAt s cursor.direction cursor.target i) = ((run[i]?).map entryItem).getD fillerItem) → ends x :=
      fun x hx hbytes => by
        have hwhole := cwalk_whole n hfree
        dsimp only at hwhole
        rw [cwalk_nibbles hbytes, hx] at hwhole
        exact hwhole
    refine ⟨fun hn => hends _ ?_ (fun i hi => hwithin i (by omega)), fun hn => hends _ ?_ (fun i hi => hwithin i (by omega)),
      fun hn hnone => ?_⟩
    · rw [htarget, hrun _ (by omega), if_pos (by omega)]
    · rw [htarget, hrun _ (by omega), if_neg (by omega), hfollowing]
    · have hpast : ∀ i, run.length ≤ i → walkAt s cursor.direction cursor.target i = none := by
        intro i hi
        have hlast : walkAt s cursor.direction cursor.target run.length = none := by
          rw [htarget, hrun _ (by omega), if_neg (by omega), ← hnone, hfollowing]
        obtain ⟨j, rfl⟩ : ∃ j, i = j + run.length := ⟨i - run.length, by omega⟩
        rw [walkAt, Function.iterate_add_apply, ← walkAt, ← walkAt, hlast, walkAt_none]
      refine hends none (hpast _ (by omega)) fun i _ => ?_
      by_cases hi : i < run.length
      · exact hwithin i hi
      · rw [hpast i (by omega), List.getElem?_eq_none (by omega)]
        rfl
  · intro s p n hfree hnone
    have hwhole := cwalk_whole n hfree
    dsimp only at hwhole
    have hsame : (⟨none, (s.catalogue.cursors.get p).direction⟩ : Cursor) = s.catalogue.cursors.get p := by rw [← hnone]
    rw [hnone, walkAt_none, hsame, setCursor_same, cwalk_nibbles (run := [])] at hwhole
    · exact hwhole
    · intro i _
      rw [walkAt_none]
      rfl

end Sys2Proof.Machine
end

section
/-! The argument bytes of the requests (O52), and the frames that carry no request (O3). -/

namespace Sys2Proof.Machine

/-! ## Argument bytes -/

/-- A byte of a field above its lowest byte. -/
theorem extract_above (v : Nat) {n : Nat} (x : BitVec v) (y : Byte) (h : 8 ≤ n) :
    (x ++ y).extractLsb' n 8 = x.extractLsb' (n - 8) 8 := BitVec.extractLsb'_append_eq_of_le h

/-- The lowest byte of a field. -/
theorem extract_lowest (v : Nat) (x : BitVec v) (y : Byte) : (x ++ y).extractLsb' 0 8 = y :=
  (BitVec.extractLsb'_append_eq_of_add_le (Nat.le_refl 8)).trans BitVec.extractLsb'_eq_self

theorem bytes2_append (x1 x0 : Byte) : bytes2 (x1 ++ x0) = [x1, x0] := by
  simp [bytes2, extract_above 8, extract_lowest 8]

theorem bytes4_append (x3 x2 x1 x0 : Byte) : bytes4 (x3 ++ x2 ++ x1 ++ x0) = [x3, x2, x1, x0] := by
  simp [bytes4, extract_above 8, extract_lowest 8, extract_above 16, extract_lowest 16, extract_above 24, extract_lowest 24]

theorem bytes5_append (x4 x3 x2 x1 x0 : Byte) : bytes5 (x4 ++ x3 ++ x2 ++ x1 ++ x0) = [x4, x3, x2, x1, x0] := by
  simp [bytes5, extract_above 8, extract_lowest 8, extract_above 16, extract_lowest 16, extract_above 24, extract_lowest 24,
    extract_above 32, extract_lowest 32]

/-- The bytes that spell arguments are the bytes those arguments are written as. -/
theorem ofBytes_iff {α : Type} {enc : α → List Byte} {dec : List Byte → Option α} (hround : ∀ a, dec (enc a) = some a)
    (hspelt : ∀ bs a, dec bs = some a → enc a = bs) (a : α) (bs : List Byte) : dec bs = some a ↔ bs = enc a :=
  ⟨fun h => (hspelt bs a h).symm, fun h => h ▸ hround a⟩

theorem OpenArgs.toBytes_ofBytes (bs : List Byte) (a : OpenArgs) (h : OpenArgs.ofBytes bs = some a) : a.toBytes = bs := by
  unfold OpenArgs.ofBytes at h
  split at h
  · obtain rfl := Option.some.inj h
    simp [OpenArgs.toBytes, bytes5_append, bytes2_append]
  · exact nomatch h

theorem LputArgs.toBytes_ofBytes (bs : List Byte) (a : LputArgs) (h : LputArgs.ofBytes bs = some a) : a.toBytes = bs := by
  unfold LputArgs.ofBytes at h
  split at h
  · obtain rfl := Option.some.inj h
    simp [LputArgs.toBytes, bytes4_append]
  · exact nomatch h

theorem LearnArgs.toBytes_ofBytes (bs : List Byte) (a : LearnArgs) (h : LearnArgs.ofBytes bs = some a) : a.toBytes = bs := by
  unfold LearnArgs.ofBytes at h
  split at h
  · obtain rfl := Option.some.inj h
    rfl
  · exact nomatch h

theorem LgetArgs.toBytes_ofBytes (bs : List Byte) (a : LgetArgs) (h : LgetArgs.ofBytes bs = some a) : a.toBytes = bs := by
  unfold LgetArgs.ofBytes at h
  split at h
  · obtain rfl := Option.some.inj h
    rfl
  · exact nomatch h

theorem CdecArgs.toBytes_ofBytes (bs : List Byte) (a : CdecArgs) (h : CdecArgs.ofBytes bs = some a) : a.toBytes = bs := by
  unfold CdecArgs.ofBytes at h
  split at h
  · obtain rfl := Option.some.inj h
    simp [CdecArgs.toBytes, bytes2_append]
  · exact nomatch h

theorem GrantArgs.toBytes_ofBytes (bs : List Byte) (a : GrantArgs) (h : GrantArgs.ofBytes bs = some a) : a.toBytes = bs := by
  unfold GrantArgs.ofBytes at h
  split at h
  · obtain rfl := Option.some.inj h
    rfl
  · exact nomatch h

theorem CseekArgs.toBytes_ofBytes (bs : List Byte) (a : CseekArgs) (h : CseekArgs.ofBytes bs = some a) : a.toBytes = bs := by
  unfold CseekArgs.ofBytes at h
  split at h
  · obtain rfl := Option.some.inj h
    simp [CseekArgs.toBytes, bytes5_append, bytes2_append]
  · exact nomatch h

theorem ProbeArgs.toBytes_ofBytes (bs : List Byte) (a : ProbeArgs) (h : ProbeArgs.ofBytes bs = some a) : a.toBytes = bs := by
  unfold ProbeArgs.ofBytes at h
  split at h
  · obtain rfl := Option.some.inj h
    rfl
  · exact nomatch h

theorem bytes5_positionArgOf (bs : List Byte) (a : Position) (h : positionArgOf bs = some a) : bytes5 a = bs := by
  unfold positionArgOf at h
  split at h
  · obtain rfl := Option.some.inj h
    exact bytes5_append ..
  · exact nomatch h

theorem bytes4_wordArgOf (bs : List Byte) (a : Word32) (h : wordArgOf bs = some a) : bytes4 a = bs := by
  unfold wordArgOf at h
  split at h
  · obtain rfl := Option.some.inj h
    exact bytes4_append ..
  · exact nomatch h

theorem bytes2_halfArgOf (bs : List Byte) (a : BitVec 16) (h : halfArgOf bs = some a) : bytes2 a = bs := by
  unfold halfArgOf at h
  split at h
  · obtain rfl := Option.some.inj h
    exact bytes2_append ..
  · exact nomatch h

theorem byteArg_byteArgOf (bs : List Byte) (a : Byte) (h : byteArgOf bs = some a) : byteArg a = bs := by
  unfold byteArgOf at h
  split at h
  · obtain rfl := Option.some.inj h
    rfl
  · exact nomatch h

theorem bytes2_eq (v : BitVec 16) : bytes2 v = fieldBytes 2 v.toNat := by
  rw [fieldBytes_two, BitVec.ofNat_toNat, BitVec.setWidth_eq]

theorem bytes4_eq_field (v : Word32) : bytes4 v = fieldBytes 4 v.toNat := by
  rw [fieldBytes_four, BitVec.ofNat_toNat, BitVec.setWidth_eq]

theorem bytes5_eq_field (v : Position) : bytes5 v = fieldBytes 5 v.toNat := by
  rw [fieldBytes_five, BitVec.ofNat_toNat, BitVec.setWidth_eq]

theorem Request.ofCode_eq_some (c : Byte) (r : Request) : Request.ofCode c = some r ↔ r.code = c := by
  constructor
  · intro h
    simpa using List.find?_some (p := fun r : Request => r.code == c) h
  · rintro rfl
    cases r <;> decide

/-- Settles O52. -/
theorem argumentBytesRoundTrip : Obligations.ArgumentBytesRoundTrip := by
  refine ⟨fun r => by cases r <;> decide, Request.ofCode_eq_some, bytes2_eq, bytes4_eq_field, bytes5_eq_field, fun _ => rfl,
    fun a => ?_, fun a => ?_, fun _ => rfl, fun _ => rfl, fun a => ?_, fun _ => rfl, fun a => ?_, fun _ => rfl, ?_⟩
  · rw [OpenArgs.toBytes, bytes5_eq_field, bytes2_eq, bytes2_eq]
  · rw [LputArgs.toBytes, bytes4_eq_field]
  · rw [CdecArgs.toBytes, bytes2_eq]
  · rw [CseekArgs.toBytes, bytes2_eq, bytes5_eq_field]
  · exact ⟨ofBytes_iff OpenArgs.ofBytes_toBytes OpenArgs.toBytes_ofBytes,
      ofBytes_iff LputArgs.ofBytes_toBytes LputArgs.toBytes_ofBytes,
      ofBytes_iff LearnArgs.ofBytes_toBytes LearnArgs.toBytes_ofBytes,
      ofBytes_iff LgetArgs.ofBytes_toBytes LgetArgs.toBytes_ofBytes,
      ofBytes_iff CdecArgs.ofBytes_toBytes CdecArgs.toBytes_ofBytes,
      ofBytes_iff GrantArgs.ofBytes_toBytes GrantArgs.toBytes_ofBytes,
      ofBytes_iff CseekArgs.ofBytes_toBytes CseekArgs.toBytes_ofBytes,
      ofBytes_iff ProbeArgs.ofBytes_toBytes ProbeArgs.toBytes_ofBytes,
      ofBytes_iff positionArgOf_bytes5 bytes5_positionArgOf,
      ofBytes_iff wordArgOf_bytes4 bytes4_wordArgOf,
      ofBytes_iff halfArgOf_bytes2 bytes2_halfArgOf,
      ofBytes_iff byteArgOf_byteArg byteArg_byteArgOf⟩

/-! ## Frames without a request -/

/-- The clock pulses of a status reply after any received bytes. -/
theorem shiftNibbles_replied (p : Port) (bytes : List Byte) (n : Nat) (s : State) :
    shiftNibbles statusSource p n (s.mapPort p (fun q => q.startFrame .replying bytes none)) =
      s.mapPort p (fun q => q.replied bytes n (statusByte s p) (statusReply s p n)) := by
  induction n with
  | zero => rfl
  | succ n ih => rw [shiftNibbles_succ, ih, shiftNibble_status]

theorem statusByte_toNat (s : State) (p : Port) :
    (statusByte s p).toNat = (s.ports.get p).lastResult.code.toNat +
      (if (s.ports.get p).events &&& (s.ports.get p).mask ≠ 0#11 then 16 else 0) +
        (if s.pass.state ≠ .idle then 32 else 0) := by
  have hbits : ∀ (r : Result) (a b : Bool),
      (r.code ||| (if a then 0x10#8 else 0#8) ||| (if b then 0x20#8 else 0#8)).toNat =
        r.code.toNat + (if a then 16 else 0) + (if b then 32 else 0) := fun r => by cases r <;> decide
  have hattention : attentionOf (s.ports.get p) = decide ((s.ports.get p).events &&& (s.ports.get p).mask ≠ 0#11) := by
    rw [decide_not]
    rfl
  have hbusy : passBusy s = decide (s.pass.state ≠ .idle) := by
    rw [decide_not]
    rfl
  unfold statusByte
  rw [hbits, hattention, hbusy]
  simp only [decide_eq_true_eq]

/-- Settles O3. -/
theorem framesWithoutRequestRecordTheirResult : Obligations.FramesWithoutRequestRecordTheirResult := by
  have hdeselected : ∀ (s : State) (p : Port), s.portFree p → deselected s p = true := fun s p h => by simp [deselected, h]
  refine ⟨fun s p c n hfree hcode => ?_, fun s p a n hfree hform => ?_, fun s p hfree => ?_, fun s p => ?_⟩
  · change completed (unknownFrame p (.whole c n) s) = _
    rw [unknownFrame, if_pos (by simp [hdeselected s p hfree, hcode]), shiftNibbles_replied, endFrame_replied, completed]
  · change completed (shortFrame p (.whole a n) s) = _
    rw [shortFrame, if_pos (by simp [hdeselected s p hfree, hform]), endFrame, State.mapPort_mapPort, completed]
    rfl
  · change completed (pulseSelect p s) = _
    rw [pulseSelect, if_pos (hdeselected s p hfree), completed]
    rfl
  · dsimp only
    rw [statusByte_toNat]
    cases (s.ports.get p).lastResult <;> rfl

end Sys2Proof.Machine
end

section
/-! The hiss stage (O51) and the hum stage (O50) of one position. -/

namespace Sys2Proof.Machine

/-! ## The hiss stage -/

/-- A value moved towards another by a floored fraction of their distance. -/
theorem floorStep_between (a b : Int) (k : Nat) :
    min a b ≤ a + (b - a) / 2 ^ k ∧ a + (b - a) / 2 ^ k ≤ max a b ∧ (b < a → a + (b - a) / 2 ^ k < a) := by
  have hpos : (0 : Int) < 2 ^ k := by positivity
  have hone : (1 : Int) ≤ 2 ^ k := hpos
  rcases lt_or_ge b a with h | h
  · have hneg : (b - a) / 2 ^ k < 0 := Int.ediv_neg_of_neg_of_pos (by omega) hpos
    have hlow : b - a ≤ (b - a) / 2 ^ k := by
      rw [Int.le_ediv_iff_mul_le hpos]
      nlinarith
    omega
  · have hnonneg : 0 ≤ (b - a) / 2 ^ k := Int.ediv_nonneg (by omega) hpos.le
    have hhigh : (b - a) / 2 ^ k ≤ b - a := Int.ediv_le_self _ (by omega)
    omega

theorem clampInt_fullScale (v : Int) : clampInt Config.fullScale v = max (-8388607) (min v 8388607) := rfl

/-- The envelope of a position. -/
theorem hissEnvelope_eq (q : LaneSettings) (env m : Nat) :
    ((hissEnvelope q env m : Nat) : Int) =
      env + ((m : Int) - env) / 2 ^ (if (env : Int) < m then q.attack else q.release) := by
  obtain ⟨hlow, -, -⟩ := floorStep_between env m (if env < m then q.attack else q.release)
  have hcond : (if (env : Int) < m then q.attack else q.release) = if env < m then q.attack else q.release := by
    simp only [Nat.cast_lt]
  rw [hcond, hissEnvelope, shiftRight, Int.toNat_of_nonneg (by omega)]

/-- The gain of the high band lies between its floor and unity. -/
theorem hissGain_eq (q : LaneSettings) (x : HissState) (env : Nat) (hg : q.gmin ≤ 32768) :
    ((hissGain q x env : Nat) : Int) =
        (if x.threshold = 0 ∨ (x.threshold : Int) ≤ env ∨ x.learnFlag = true then 32768
          else max (q.gmin : Int) (32768 * env / x.threshold)) ∧
      q.gmin ≤ hissGain q x env ∧ hissGain q x env ≤ 32768 := by
  unfold hissGain
  simp only [Nat.cast_le]
  split
  · exact ⟨rfl, hg, Nat.le_refl _⟩
  · next h =>
    have hratio : 32768 * env / x.threshold ≤ 32768 := Nat.div_le_of_le_mul (by
      have hlt : env < x.threshold := by omega
      nlinarith)
    exact ⟨by push_cast; rfl, Nat.le_max_left .., Nat.max_le.2 ⟨hg, hratio⟩⟩

/-- Settles O51. -/
theorem hissStageFollowsTheGainLaw : Obligations.HissStageFollowsTheGainLaw := by
  intro q y x hy hy' hlp hlp' henv hg lp0 env0 lp high env g r
  obtain ⟨hlow, hhigh, hfall⟩ := floorStep_between lp0 y q.crossover
  have hlpRange : -8388607 ≤ lp ∧ lp ≤ 8388607 := by omega
  have hband : |high| ≤ 16777214 := abs_le.2 (by omega)
  have hmagnitude : |high| = (high.natAbs : Int) := (Int.natCast_natAbs high).symm
  have henvelope : ((hissEnvelope q x.env.toNat high.natAbs : Nat) : Int) = env := by
    rw [hissEnvelope_eq, ← hmagnitude]
  obtain ⟨hlow', hhigh', hfall'⟩ := floorStep_between env0 |high| (if env0 < |high| then q.attack else q.release)
  have henvRange : hissEnvelope q x.env.toNat high.natAbs ≤ 16777214 := by omega
  obtain ⟨hgain, hmin, hmax⟩ := hissGain_eq q x (hissEnvelope q x.env.toNat high.natAbs) hg
  have hgain' : ((hissGain q x (hissEnvelope q x.env.toNat high.natAbs) : Nat) : Int) = g := by rw [hgain, henvelope]
  have hrestored : r.1.toInt = max (-8388607) (min (lp + (high * g + 16384) / 32768) 8388607) := by
    rw [← hgain', ← clampInt_fullScale]
    exact toInt_ofInt_of_fullScale (clampInt_range (by decide))
  refine ⟨toInt_ofInt_of_fullScale hlpRange, ?_, rfl, rfl, hrestored, hlow, hhigh, hfall, hband, hlow', hhigh', hfall',
    by omega, by omega, fun hunity => ?_⟩
  · rw [← henvelope]
    exact congrArg Nat.cast (Nat.mod_eq_of_lt (b := 2 ^ 25) (Nat.lt_of_le_of_lt henvRange (by decide)))
  · have hsum : lp + (high * g + 16384) / 32768 = y := by
      rw [hunity]
      omega
    rw [hrestored, hsum]
    omega

/-! ## The hum stage -/

/-- Writes at distinct indices: the last index written holds its value. -/
theorem getElem?_foldl_set_of_not_mem {α β : Type} (slot : α → Nat) (v : α → β) (l : List α) (init : List β) (i : Nat)
    (h : ∀ x ∈ l, slot x ≠ i) : (l.foldl (fun acc x => acc.set (slot x) (v x)) init)[i]? = init[i]? := by
  induction l generalizing init with
  | nil => rfl
  | cons x l ih =>
    rw [List.foldl_cons, ih _ (fun y hy => h y (List.mem_cons_of_mem _ hy)), List.getElem?_set_ne (h x List.mem_cons_self)]

theorem length_foldl_set {α β : Type} (slot : α → Nat) (v : α → β) (l : List α) (init : List β) :
    (l.foldl (fun acc x => acc.set (slot x) (v x)) init).length = init.length := by
  induction l generalizing init with
  | nil => rfl
  | cons x l ih => rw [List.foldl_cons, ih, List.length_set]

theorem getElem?_foldl_set_of_mem {α β : Type} (slot : α → Nat) (v : α → β) {l : List α} {init : List β} {x : α}
    (hx : x ∈ l) (hlen : slot x < init.length) (hinj : ∀ y ∈ l, slot y = slot x → y = x) :
    (l.foldl (fun acc y => acc.set (slot y) (v y)) init)[slot x]? = some (v x) := by
  induction l generalizing init with
  | nil => exact absurd hx List.not_mem_nil
  | cons y l ih =>
    rw [List.foldl_cons]
    by_cases hmem : x ∈ l
    · exact ih hmem (by rw [List.length_set]; exact hlen) (fun z hz => hinj z (List.mem_cons_of_mem _ hz))
    · obtain rfl : x = y := (List.mem_cons.1 hx).resolve_right hmem
      rw [getElem?_foldl_set_of_not_mem slot v l _ _ (fun z hz heq => hmem (hinj z (List.mem_cons_of_mem _ hz) heq ▸ hz)),
        List.getElem?_set_self hlen]

theorem mem_harmonicsInUse {q : LaneSettings} {x : Harmonic} :
    x ∈ harmonicsInUse q ↔ (∃ i < q.harmonicsA, x = ⟨.a, i + 1⟩) ∨ ∃ i < q.harmonicsB, x = ⟨.b, i + 1⟩ := by
  simp [harmonicsInUse, eq_comm]

theorem Harmonic.slot_a (i : Nat) : (⟨.a, i + 1⟩ : Harmonic).slot = i := rfl

theorem Harmonic.slot_b (i : Nat) : (⟨.b, i + 1⟩ : Harmonic).slot = 11 - i := by
  simp only [Harmonic.slot]
  omega

/-- The harmonics in use have slots of their own (R100). -/
theorem slot_injective {q : LaneSettings} (hsum : q.harmonicsA + q.harmonicsB ≤ 12) {x y : Harmonic}
    (hx : x ∈ harmonicsInUse q) (hy : y ∈ harmonicsInUse q) (h : x.slot = y.slot) : x = y := by
  rw [mem_harmonicsInUse] at hx hy
  obtain ⟨i, hi, rfl⟩ | ⟨i, hi, rfl⟩ := hx <;> obtain ⟨j, hj, rfl⟩ | ⟨j, hj, rfl⟩ := hy <;>
    · simp only [Harmonic.slot_a, Harmonic.slot_b] at h
      first
        | (obtain rfl : i = j := by omega
           rfl)
        | omega

theorem mem_activeHarmonics {q : LaneSettings} {g : HumState} {x : Harmonic} :
    x ∈ activeHarmonics q g ↔ x ∈ harmonicsInUse q ∧ x.number * g.incOf x.family < 2 ^ 31 := by
  simp [activeHarmonics, HumState.isActive]

/-- A sum over those that pass a test. -/
theorem sum_filter_map {α : Type} (p : α → Bool) (f : α → Int) (l : List α) :
    ((l.filter p).map f).sum = (l.map (fun x => if p x then f x else 0)).sum := by
  induction l with
  | nil => rfl
  | cons x l ih =>
    by_cases h : p x <;> simp [h, ih]

theorem adaptOne_toInt (c : BitVec 32) (e t : Int) (m : Nat) :
    (adaptOne c e t m).toInt = max (-(2 ^ 31)) (min (c.toInt + (e * t * 2) / 2 ^ m) (2 ^ 31 - 1)) := by
  rw [adaptOne, BitVec.toInt_ofInt_eq_self (by decide) (by unfold sat32; omega) (by unfold sat32; omega)]
  rfl

/-- The slot of an active harmonic after the adaptation of a position. -/
theorem adaptSlots_active {q : LaneSettings} {g : HumState} {e : Int} {x : Harmonic}
    (hsum : q.harmonicsA + q.harmonicsB ≤ 12) (hlen : g.slots.length = 12) (hx : x ∈ activeHarmonics q g) :
    (adaptSlots q g e).getD x.slot ⟨0#32, 0#32⟩ =
      ⟨adaptOne (g.coefficient x).c e (cosOf (g.phaseOf x)) q.adaptShift,
        adaptOne (g.coefficient x).s e (sinOf (g.phaseOf x)) q.adaptShift⟩ := by
  have huse := (mem_activeHarmonics.1 hx).1
  have hslot : x.slot < g.slots.length := by
    rw [hlen]
    obtain ⟨i, hi, rfl⟩ | ⟨i, hi, rfl⟩ := mem_harmonicsInUse.1 huse
    · rw [Harmonic.slot_a]
      omega
    · rw [Harmonic.slot_b]
      omega
  rw [List.getD_eq_getElem?_getD, adaptSlots, getElem?_foldl_set_of_mem Harmonic.slot _ hx hslot
    (fun y hy h => slot_injective hsum (mem_activeHarmonics.1 hy).1 huse h)]
  rfl

/-- The estimate's sum, family by family (R106). -/
theorem estimateSum_eq (q : LaneSettings) (g : HumState) :
    let phase := fun (φ : BitVec 32) (i : Nat) => ((i + 1) * φ.toNat) % 2 ^ 32
    let term := fun (y : Coefficient) (angle : Nat) => y.c.toInt * cosOf angle + y.s.toInt * sinOf angle
    let slotAt := fun (i : Nat) => g.slots.getD i ⟨0#32, 0#32⟩
    estimateSum q g =
      ((List.range q.harmonicsA).map (fun i =>
          if (i + 1) * g.incOf .a < 2 ^ 31 then term (slotAt i) (phase g.phaseA i) else 0)).sum +
        ((List.range q.harmonicsB).map (fun i =>
          if (i + 1) * g.incOf .b < 2 ^ 31 then term (slotAt (11 - i)) (phase g.phaseB i) else 0)).sum := by
  intro phase term slotAt
  rw [estimateSum, activeHarmonics, harmonicsInUse, List.filter_append, List.map_append, List.sum_append, sum_filter_map,
    sum_filter_map, List.map_map, List.map_map]
  refine congrArg₂ (· + ·) (congrArg List.sum (List.map_congr_left fun i _ => ?_))
    (congrArg List.sum (List.map_congr_left fun i _ => ?_))
  · simp only [Function.comp_apply, HumState.isActive, decide_eq_true_eq, HumState.coefficient, Harmonic.slot_a]
    rfl
  · simp only [Function.comp_apply, HumState.isActive, decide_eq_true_eq, HumState.coefficient, Harmonic.slot_b]
    rfl

/-! ## The sine table -/

theorem sineQuarter_le : sineQuarter.all (fun v => decide (v ≤ 32767)) = true := by
  simp only [sineQuarter, List.all_append, Bool.and_eq_true]
  refine ⟨⟨⟨⟨⟨⟨⟨⟨⟨⟨⟨⟨⟨⟨⟨⟨?_, ?_⟩, ?_⟩, ?_⟩, ?_⟩, ?_⟩, ?_⟩, ?_⟩, ?_⟩, ?_⟩, ?_⟩, ?_⟩, ?_⟩, ?_⟩, ?_⟩, ?_⟩, ?_⟩ <;> decide

theorem sineQuarter_getD_le (k : Nat) : sineQuarter.getD k 0 ≤ 32767 := by
  rw [List.getD_eq_getElem?_getD]
  cases h : sineQuarter[k]? with
  | none => exact Nat.zero_le _
  | some v => exact of_decide_eq_true (List.all_eq_true.1 sineQuarter_le v (List.mem_of_getElem? h))

theorem sineTable_range (i : Nat) : -32767 ≤ sineTable i ∧ sineTable i ≤ 32767 := by
  have hquarter := sineQuarter_getD_le
  unfold sineTable
  dsimp only
  split
  · have := hquarter (i % 4096)
    omega
  · split
    · have := hquarter (2048 - i % 4096)
      omega
    · split
      · have := hquarter (i % 4096 - 2048)
        omega
      · have := hquarter (4096 - i % 4096)
        omega

/-- The first half of the table; the second is minus the first, one half on. -/
theorem sineTable_antisymmetric {i : Nat} (h1 : 1 ≤ i) (h2 : i ≤ 4095) : sineTable (4096 - i) = -sineTable i := by
  have hmod : i % 4096 = i := Nat.mod_eq_of_lt (by omega)
  have hmod' : (4096 - i) % 4096 = 4096 - i := Nat.mod_eq_of_lt (by omega)
  have hzero : sineQuarter.getD 0 0 = 0 := rfl
  unfold sineTable
  dsimp only
  rw [hmod, hmod']
  obtain h | h | h | h | h : i ≤ 1024 ∨ (1024 < i ∧ i < 2048) ∨ i = 2048 ∨ (2048 < i ∧ i < 3072) ∨ 3072 ≤ i := by omega
  · rw [if_neg (by omega), if_neg (by omega), if_pos h]
    split
    · rw [show 4096 - i - 2048 = i by omega]
    · rw [show 4096 - (4096 - i) = i by omega]
  · rw [if_neg (by omega), if_neg (by omega), if_pos (by omega), if_neg (by omega), if_pos (by omega),
      show 4096 - i - 2048 = 2048 - i by omega]
  · subst h
    simpa using hzero
  · rw [if_neg (by omega), if_pos (by omega), if_neg (by omega), if_neg (by omega), if_pos (by omega), neg_neg,
      show 2048 - (4096 - i) = i - 2048 by omega]
  · rw [if_pos (by omega), if_neg (by omega), if_neg (by omega)]
    split
    · rw [neg_neg, show 4096 - i = i - 2048 by omega]
    · rw [neg_neg]

/-- The phase increments of a legal ratio and S8 (R101). -/
theorem increment_range {rho s8 : Nat} (h1 : 1 ≤ rho) (h2 : rho ≤ 65535) (h3 : 1024 ≤ s8) (h4 : s8 ≤ 524280) :
    16 ≤ increment rho s8 ∧ increment rho s8 ≤ 536862720 := by
  unfold increment
  constructor
  · rw [Nat.le_div_iff_mul_le (by omega)]
    omega
  · rw [← Nat.lt_succ_iff, Nat.div_lt_iff_lt_mul (by omega)]
    omega

/-! ## One position -/

theorem HumState.advance_phases (g : HumState) :
    g.advance.phaseA.toNat = (g.phaseA.toNat + g.incOf .a) % 2 ^ 32 ∧
      g.advance.phaseB.toNat = (g.phaseB.toNat + g.incOf .b) % 2 ^ 32 := by
  simp [HumState.advance, BitVec.toNat_add]

/-- The coefficients of an adapted position: every active harmonic's, and no other (R108). -/
theorem humPosition_adapted {q : LaneSettings} {g : HumState} (e : Int) (hlen : g.slots.length = 12)
    (hsum : q.harmonicsA + q.harmonicsB ≤ 12) :
    let adapted := fun (v : BitVec 32) (table : Int) =>
      max (-(2 ^ 31)) (min (v.toInt + (e * table * 2) / 2 ^ q.adaptShift) (2 ^ 31 - 1))
    let pair := fun (x : Harmonic) =>
      ((adaptSlots q g e).getD x.slot ⟨0#32, 0#32⟩).c.toInt = adapted (g.coefficient x).c (cosOf (g.phaseOf x)) ∧
        ((adaptSlots q g e).getD x.slot ⟨0#32, 0#32⟩).s.toInt = adapted (g.coefficient x).s (sinOf (g.phaseOf x))
    (adaptSlots q g e).length = 12 ∧ (∀ x ∈ activeHarmonics q g, pair x) ∧
      ∀ i, (∀ x ∈ activeHarmonics q g, x.slot ≠ i) → (adaptSlots q g e)[i]? = g.slots[i]? := by
  refine ⟨?_, fun x hx => ?_, fun i hi => ?_⟩
  · rw [adaptSlots, length_foldl_set Harmonic.slot, hlen]
  · dsimp only
    rw [adaptSlots_active hsum hlen hx]
    exact ⟨adaptOne_toInt .., adaptOne_toInt ..⟩
  · rw [adaptSlots, getElem?_foldl_set_of_not_mem Harmonic.slot _ _ _ _ hi]

/-- Settles O50. -/
theorem humStageFollowsTheLockState : Obligations.HumStageFollowsTheLockState := by
  refine ⟨?_, fun q h k => by cases k <;> rfl, fun rho s8 h1 h2 h3 h4 => increment_range h1 h2 h3 h4, fun _ => ⟨rfl, rfl⟩,
    by decide +kernel, by decide +kernel, by decide +kernel, by decide +kernel, by decide +kernel, fun i _ => sineTable_range i,
    fun i h1 h2 => sineTable_antisymmetric h1 h2⟩
  intro q es suspended x h hx hx' g r phase term slotAt activeA activeB acc adapted adaptedPair
  have hestimate : clampInt Config.fullScale (x - estimate q g) = max (-8388607) (min (x - (acc + 2 ^ 30) / 2 ^ 31) 8388607) :=
    congrArg (fun a : Int => max (-8388607) (min (x - (a + 2 ^ 30) / 2 ^ 31) 8388607)) (estimateSum_eq q g)
  have hrange := clampInt_range (m := Config.fullScale) (x := x - estimate q g) (by decide)
  obtain ⟨hphaseA, hphaseB⟩ := g.advance_phases
  cases hlock : g.point.lock with
  | unlocked =>
    have hr : r = (x, g) := by
      change humPosition q es suspended x h = _
      unfold humPosition
      simp only [show (es.foldl (HumState.applyEvent q) h).point.lock = .unlocked from hlock, g]
    clear_value r
    subst hr
    exact ⟨hx, hx', fun _ => rfl, fun hne => absurd rfl hne, fun _ => rfl, fun hne => nomatch hne⟩
  | holdover =>
    have hr : r = (clampInt Config.fullScale (x - estimate q g), g.advance) := by
      change humPosition q es suspended x h = _
      unfold humPosition
      simp only [show (es.foldl (HumState.applyEvent q) h).point.lock = .holdover from hlock, g]
    clear_value r
    subst hr
    exact ⟨hrange.1, hrange.2, fun hne => (nomatch hne), fun _ => ⟨hestimate, hphaseA, hphaseB, rfl, rfl⟩, fun _ => rfl,
      fun hne => (nomatch hne)⟩
  | locked =>
    have hr : r = (clampInt Config.fullScale (x - estimate q g),
        (if suspended then g else { g with slots := adaptSlots q g (clampInt Config.fullScale (x - estimate q g)) }).advance) := by
      change humPosition q es suspended x h = _
      unfold humPosition
      simp only [show (es.foldl (HumState.applyEvent q) h).point.lock = .locked from hlock, g]
    clear_value r
    subst hr
    cases suspended with
    | true =>
      exact ⟨hrange.1, hrange.2, fun hne => (nomatch hne), fun _ => ⟨hestimate, hphaseA, hphaseB, rfl, rfl⟩, fun _ => rfl,
        fun _ hne => (nomatch hne)⟩
    | false =>
      refine ⟨hrange.1, hrange.2, fun hne => (nomatch hne), fun _ => ⟨hestimate, hphaseA, hphaseB, rfl, rfl⟩,
        fun hne => (nomatch hne), fun _ _ hlen hsum => ?_⟩
      obtain ⟨hlen', hactive, hkept⟩ :=
        humPosition_adapted (clampInt Config.fullScale (x - estimate q g)) hlen hsum
      refine ⟨hlen', fun i hi => ?_, fun i hi => ?_, fun i hi hA hB => hkept i fun y hy hslot => ?_⟩
      · exact hactive ⟨.a, i + 1⟩ (mem_activeHarmonics.2 ⟨mem_harmonicsInUse.2 (.inl ⟨i, hi.1, rfl⟩), hi.2⟩)
      · have hpair := hactive ⟨.b, i + 1⟩ (mem_activeHarmonics.2 ⟨mem_harmonicsInUse.2 (.inr ⟨i, hi.1, rfl⟩), hi.2⟩)
        simp only [HumState.coefficient, Harmonic.slot_b] at hpair
        exact hpair
      · obtain ⟨huse, hinc⟩ := mem_activeHarmonics.1 hy
        obtain ⟨j, hj, rfl⟩ | ⟨j, hj, rfl⟩ := mem_harmonicsInUse.1 huse
        · rw [Harmonic.slot_a] at hslot
          exact hA (hslot ▸ ⟨hj, hinc⟩)
        · rw [Harmonic.slot_b] at hslot
          obtain rfl : j = 11 - i := by omega
          exact hB ⟨hj, hinc⟩

end Sys2Proof.Machine
end

section
/-! The taking of an entry of the scan FIFO: how work on it ends, entries outside a packet, and loss marks (O36). -/

namespace Sys2Proof.Machine

/-! ## Taking an entry -/

/-- The command that takes an entry of a tag. -/
def Tag.taker : Tag → Instr
  | .head => .headTaken
  | .data => .dataTaken
  | .mark => .markTaken
  | .close => .endTaken

/-- The part once the oldest entry has left the FIFO. -/
def State.popped (s : State) (rest : List FifoEntry) : State := s.setScan { s.scan with fifo := rest }

theorem exec_taker (g : Tag) (s : State) : exec (Tag.taker g) s = completed (takeOldest g s) := by
  cases g <;> rfl

theorem takeOldest_eq {s : State} {e : FifoEntry} {rest : List FifoEntry} (hfifo : s.scan.fifo = e :: rest)
    (hopen : s.pass.state = .running ∨ s.pass.state = .closing) (hwait : s.scan.stall.waiting = false) :
    takeOldest e.tag s = takeEntry e (s.popped rest) := by
  have htakes : assemblerTakes s = true := by
    obtain h | h := hopen <;> simp [assemblerTakes, h, hwait]
  simp only [takeOldest, hfifo, htakes, Bool.true_and, beq_self_eq_true, if_true]
  rfl

/-- An entry that the assembler can take, taken. -/
theorem exec_taken {s : State} {e : FifoEntry} {rest : List FifoEntry} (h : s.canTake e rest) :
    exec (Tag.taker e.tag) s = .next (settle (finishEntry e (actEntry e (s.popped rest)))) := by
  obtain ⟨hfifo, hopen, hwait, hended⟩ := h
  rw [exec_taker, takeOldest_eq hfifo hopen hwait, takeEntry]
  rw [show (s.popped rest).scan.inputEnded = false from hended, if_neg (by decide)]
  rfl

/-- An entry without a loss mark whose work comes to its end. -/
theorem exec_taken_done {s u : State} {e : FifoEntry} {rest : List FifoEntry} (h : s.canTake e rest) (hloss : e.loss = false)
    (hact : actEntry e (s.popped rest) = .done u) :
    exec (Tag.taker e.tag) s = .next (settle (u.setScan { u.scan with suspended := none })) := by
  rw [exec_taken h, hact]
  simp only [finishEntry, hloss, if_false, Bool.false_eq_true]

/-! ## How work on an entry ends -/

/-- How work that starts from a state ends: where it is done, stall and end of input are as they were; where it stalls, a
stall is under way; where it ends the input, the input has ended. -/
def Run.EndsFrom (s : State) : Run → Prop
  | .done t => t.scan.stall = s.scan.stall ∧ t.scan.inputEnded = s.scan.inputEnded
  | .stalled t _ => t.scan.stall.waiting = true ∧ t.scan.inputEnded = s.scan.inputEnded
  | .ended t => t.scan.inputEnded = true

theorem Run.EndsFrom.refl (s : State) : (Run.done s).EndsFrom s := ⟨rfl, rfl⟩

theorem Run.EndsFrom.of_eq {s t : State} {r : Run} (h : r.EndsFrom t) (hstall : t.scan.stall = s.scan.stall)
    (hinput : t.scan.inputEnded = s.scan.inputEnded) : r.EndsFrom s := by
  cases r with
  | done u => exact ⟨h.1.trans hstall, h.2.trans hinput⟩
  | stalled u n => exact ⟨h.1, h.2.trans hinput⟩
  | ended u => exact h

theorem Run.EndsFrom.andThen {s : State} {r : Run} {f : State → Run} (h : r.EndsFrom s) (hf : ∀ t, (f t).EndsFrom t) :
    (r.andThen f).EndsFrom s := by
  cases r with
  | done t => exact (hf t).of_eq h.1 h.2
  | stalled t n => exact h
  | ended t => exact h

theorem secure_ends (s : State) : (secure s).EndsFrom s := by
  obtain ⟨-, h⟩ | ⟨-, -, h⟩ | ⟨-, -, -, h⟩ | ⟨slot, -, -, -, h⟩ := secure_cases s <;> rw [h]
  · exact .refl s
  · exact rfl
  · exact ⟨rfl, rfl⟩
  · exact ⟨rfl, rfl⟩

/-- What updates leave alone. -/
theorem Updates.frame {s t : State} (h : Updates s t) :
    t.pending = s.pending ∧ t.pass = s.pass ∧ t.scan = s.scan ∧ t.engines = s.engines ∧ t.rights = s.rights ∧
      t.window.memory = s.window.memory := by
  induction h with
  | refl => exact ⟨rfl, rfl, rfl, rfl, rfl, rfl⟩
  | tail _ hu ih =>
    obtain ⟨h1, h2, h3, h4, h5, h6⟩ := ih
    cases hu with
    | ports => exact ⟨h1, h2, h3, h4, h5, h6⟩
    | blocks => exact ⟨h1, h2, h3, h4, h5, h6⟩
    | track => exact ⟨h1, h2, h3, h4, h5, h6⟩
    | list e hroom =>
      obtain ⟨f1, f2, f3, -, f5, f6, f7⟩ := listEntry_frame e _
      exact ⟨f1.trans h1, f2.trans h2, f3.trans h3, f6.trans h4, f7.trans h5, (congrArg Window.memory f5).trans h6⟩

theorem Updates.ends {s t : State} (h : Updates s t) : (Run.done t).EndsFrom s := by
  obtain ⟨-, -, hscan, -⟩ := h.frame
  exact ⟨congrArg ScanInput.stall hscan, congrArg ScanInput.inputEnded hscan⟩

theorem countPosition_ends (s : State) : (Run.done (countPosition s)).EndsFrom s :=
  (Updates.trackerReport s.scan.next (advancePosition s)).ends.of_eq rfl rfl

theorem writeVoids_frame (s : State) : ∃ m, writeVoids s = s.setMemory m := foldl_writeOriginal_frame ..

theorem fillVoids_ends (f : FilmFlag) (n : Nat) (s : State) : (fillVoids f n s).EndsFrom s := by
  induction n generalizing s with
  | zero => exact .refl s
  | succ n ih =>
    have hsecure := secure_ends s
    rw [fillVoids]
    cases h : secure s with
    | done t =>
      rw [h] at hsecure
      obtain ⟨m, hm⟩ := writeVoids_frame t
      have hcount := countPosition_ends (flagFilling f (writeVoids t))
      rw [hm] at hcount
      refine (ih _).of_eq ?_ ?_
      · exact (congrArg (fun u => (countPosition (flagFilling f u)).scan.stall) hm).trans (hcount.1.trans hsecure.1)
      · exact (congrArg (fun u => (countPosition (flagFilling f u)).scan.inputEnded) hm).trans (hcount.2.trans hsecure.2)
    | stalled t k =>
      rw [h] at hsecure
      exact hsecure
    | ended t =>
      rw [h] at hsecure
      exact hsecure

theorem placeSample_ends (c : PacketContext) (bits : List Bool) (s : State) :
    (Run.done (placeSample c bits s)).EndsFrom s := by
  unfold placeSample
  split
  · exact .refl s
  · next l _ =>
    obtain ⟨m, hm⟩ := writeOriginal_frame l (originalSample s.pass.width bits) s
    dsimp only
    rw [hm]
    split
    · exact ⟨rfl, rfl⟩
    · exact (countPosition_ends _).of_eq rfl rfl

theorem unpackBits_ends (bits : List Bool) (k : Nat) (s : State) : (unpackBits bits k s).EndsFrom s := by
  induction bits generalizing k s with
  | nil => exact .refl s
  | cons bit rest ih =>
    rw [unpackBits]
    cases hc : s.scan.context with
    | none => exact .refl s
    | some c =>
      dsimp only
      split
      · exact .refl s
      · split
        · exact (ih _ _).of_eq rfl rfl
        · have hsecure := secure_ends s
          cases h : secure s with
          | done t =>
            rw [h] at hsecure
            obtain ⟨h1, h2⟩ := placeSample_ends c (c.partialBits ++ [bit]) t
            exact (ih _ _).of_eq (h1.trans hsecure.1) (h2.trans hsecure.2)
          | stalled t n =>
            rw [h] at hsecure
            exact hsecure
          | ended t =>
            rw [h] at hsecure
            exact hsecure

theorem linkFault_ends (s : State) : (Run.done (linkFault s)).EndsFrom s := ⟨rfl, rfl⟩

theorem listGap_scan (d : Nat) (s : State) : (listGap d s).scan = s.scan := by
  unfold listGap
  split
  · rfl
  · exact (listEntry_frame _ s).2.2.1

theorem judgeSlip_scan (x y : Word32) (s : State) : (judgeSlip x y s).scan = s.scan := by
  unfold judgeSlip
  dsimp only
  split
  · rfl
  · exact (listEntry_frame _ s).2.2.1

theorem judgeHeader_ends (a b : Word32) (s : State) : (judgeHeader a b s).EndsFrom s := by
  unfold judgeHeader
  dsimp only
  split
  · exact ⟨rfl, rfl⟩
  · split
    · refine Run.EndsFrom.andThen ((fillVoids_ends _ _ _).of_eq ?_ ?_) (fun t => ⟨rfl, rfl⟩)
      · exact (congrArg ScanInput.stall (listGap_scan _ s) :)
      · exact (congrArg ScanInput.inputEnded (listGap_scan _ s) :)
    · exact ⟨(congrArg ScanInput.stall (judgeSlip_scan _ _ s) :), (congrArg ScanInput.inputEnded (judgeSlip_scan _ _ s) :)⟩

theorem takeWordB_ends (b : Word32) (s : State) : (takeWordB b s).EndsFrom s := by
  unfold takeWordB
  split
  · exact linkFault_ends _
  · split
    · exact (secure_ends s).andThen (judgeHeader_ends _ b)
    · exact linkFault_ends _

theorem continueEntry_ends (e : FifoEntry) (bits : Nat) (s : State) : (continueEntry e bits s).EndsFrom s := by
  unfold continueEntry
  split
  · split
    · exact takeWordB_ends _ s
    · exact (fillVoids_ends _ _ s).andThen (fun t => ⟨rfl, rfl⟩)
    · exact .refl s
  · exact (fillVoids_ends _ _ s).andThen (fun t => ⟨rfl, rfl⟩)
  · exact (fillVoids_ends _ _ s).andThen (fun t => ⟨rfl, rfl⟩)
  · exact unpackBits_ends _ _ s
  · exact .refl s

theorem actEntry_ends (e : FifoEntry) (s : State) : (actEntry e s).EndsFrom s := by
  have hcontinue := fun t : State => continueEntry_ends e 0 t
  unfold actEntry
  split
  · unfold actHead
    split
    · exact ⟨rfl, rfl⟩
    · exact ⟨rfl, rfl⟩
    · exact takeWordB_ends _ s
    · exact (hcontinue _).of_eq rfl rfl
    · exact (hcontinue _).of_eq rfl rfl
  · unfold actData
    split
    · split
      · exact (unpackBits_ends _ _ _).of_eq rfl rfl
      · exact linkFault_ends s
    · exact linkFault_ends s
    · exact .refl s
    · exact .refl s
    · exact linkFault_ends s
    · exact linkFault_ends _
  · have hmark : ∀ p, (Run.done (trackerMark p s)).EndsFrom s := fun p => (Updates.trackerMark p s).ends
    have hopened : ∀ c : Option PacketContext, Run.EndsFrom s (match c with
        | some c => if e.word.toNat ≤ c.count then .done (trackerMark (c.first + e.word.setWidth 40) s) else .done (linkFault s)
        | none => .done (linkFault s)) := by
      intro c
      split
      · split
        · exact hmark _
        · exact linkFault_ends s
      · exact linkFault_ends s
    unfold actMark
    split
    · exact hopened _
    · exact hopened _
    · exact .refl s
    · exact linkFault_ends s
    · exact linkFault_ends _
  · unfold actEnd
    split
    · dsimp only
      split
      · exact (hcontinue _).of_eq rfl rfl
      · exact (hcontinue _).of_eq rfl rfl
    · exact (hcontinue _).of_eq rfl rfl
    · exact ⟨rfl, rfl⟩
    · exact linkFault_ends s
    · exact linkFault_ends _

/-! ## Loss marks and stray entries -/

theorem actLoss_eq (s : State) : actLoss s = s.lossMarked := by
  have hflag : flagFilling .link s = { s with window := { s.window with
      blocks := s.window.blocks.map (fun b => if b.state = .filling then { b with filmLink := true } else b) } } := rfl
  unfold actLoss State.lossMarked
  rw [hflag]
  dsimp only
  cases s.scan.packet <;> rfl

theorem settle_lossMarked (s : State) : settle s.lossMarked = (settle s).lossMarked := by
  unfold State.lossMarked settle
  cases h : s.scan.packet <;> simp [readyOf, h]

/-- An entry with a loss mark does first what it does without one (R7). -/
theorem exec_loss {s : State} {e : FifoEntry} {rest : List FifoEntry} (h : s.canTake e rest) (hloss : e.loss = true) :
    ∃ t, exec (Tag.taker e.tag) (s.setScan { s.scan with fifo := { e with loss := false } :: rest }) = .next t ∧
      (t.scan.inputEnded = true → exec (Tag.taker e.tag) s = .next t) ∧
      (∀ x, t.scan.inputEnded = false → t.scan.stall.waiting = true → t.scan.suspended = some x →
        exec (Tag.taker e.tag) s = .next (t.setScan { t.scan with suspended := some { x with entry := e } })) ∧
      (t.scan.inputEnded = false → t.scan.stall.waiting = false → exec (Tag.taker e.tag) s = .next t.lossMarked) := by
  obtain ⟨hfifo, hopen, hwait, hended⟩ := h
  have hbare : exec (Tag.taker e.tag) (s.setScan { s.scan with fifo := { e with loss := false } :: rest }) =
      .next (settle (finishEntry { e with loss := false } (actEntry e (s.popped rest)))) :=
    exec_taken (s := s.setScan { s.scan with fifo := { e with loss := false } :: rest }) ⟨rfl, hopen, hwait, hended⟩
  have hlossy := exec_taken ⟨hfifo, hopen, hwait, hended⟩
  have hends := actEntry_ends e (s.popped rest)
  have hwait' : (s.popped rest).scan.stall.waiting = false := hwait
  have hended' : (s.popped rest).scan.inputEnded = false := hended
  refine ⟨_, hbare, ?_⟩
  rw [hlossy]
  cases hrun : actEntry e (s.popped rest) with
  | done u =>
    rw [hrun] at hends
    obtain ⟨hstall, hinput⟩ := hends
    have hfinal : (settle (finishEntry { e with loss := false } (.done u))).scan.inputEnded = false := hinput.trans hended'
    have hquiet : (settle (finishEntry { e with loss := false } (.done u))).scan.stall.waiting = false :=
      (congrArg Stall.waiting hstall).trans hwait'
    refine ⟨fun hx => ?_, fun x _ hx => ?_, fun _ _ => ?_⟩
    · exact absurd (hfinal.symm.trans hx) (by decide)
    · exact absurd (hquiet.symm.trans hx) (by decide)
    · rw [finishEntry]
      dsimp only
      rw [if_pos hloss, actLoss_eq, settle_lossMarked]
      rfl
  | stalled u n =>
    rw [hrun] at hends
    have hfinal : (settle (finishEntry { e with loss := false } (.stalled u n))).scan.inputEnded = false :=
      hends.2.trans hended'
    have hstall : (settle (finishEntry { e with loss := false } (.stalled u n))).scan.stall.waiting = true := hends.1
    refine ⟨fun hx => ?_, fun x _ _ hx => ?_, fun _ hx => ?_⟩
    · exact absurd (hfinal.symm.trans hx) (by decide)
    · obtain rfl := Option.some.inj hx
      rfl
    · exact absurd (hstall.symm.trans hx) (by decide)
  | ended u =>
    rw [hrun] at hends
    have hfinal : (settle (finishEntry { e with loss := false } (.ended u))).scan.inputEnded = true := hends
    refine ⟨fun _ => rfl, fun x hx => ?_, fun hx => ?_⟩
    · exact absurd (hfinal.symm.trans hx) (by decide)
    · exact absurd (hfinal.symm.trans hx) (by decide)

theorem taker_of_mem {g : Tag} {c : Instr}
    (h : (g, c) ∈ [(Tag.head, Instr.headTaken), (.data, .dataTaken), (.mark, .markTaken), (.close, .endTaken)]) :
    c = Tag.taker g := by
  simp only [List.mem_cons, Prod.mk.injEq, List.not_mem_nil, or_false] at h
  obtain ⟨rfl, rfl⟩ | ⟨rfl, rfl⟩ | ⟨rfl, rfl⟩ | ⟨rfl, rfl⟩ := h <;> rfl

/-- Settles O36. -/
theorem strayEntriesAreDiscarded : Obligations.StrayEntriesAreDiscarded := by
  constructor
  · intro s e rest c hc hfifo hopen hwait
    rw [taker_of_mem hc]
    refine ⟨fun hended => ?_, fun hended hloss => exec_loss ⟨hfifo, hopen, hwait, hended⟩ hloss⟩
    rw [exec_taker, takeOldest_eq hfifo hopen hwait, takeEntry, show (s.popped rest).scan.inputEnded = true from hended, if_pos rfl]
    rfl
  · intro s e rest c htake hloss hc
    have hdone : ∀ u, actEntry e (s.popped rest) = .done u →
        exec c s = .next (settle (u.setScan { u.scan with suspended := none })) := by
      intro u hu
      have htaken := exec_taken_done htake hloss hu
      obtain ⟨hg, rfl⟩ | ⟨hg, rfl⟩ | ⟨hg, rfl⟩ := hc <;> rwa [hg] at htaken
    have hpacket : (s.popped rest).scan.packet = s.scan.packet := rfl
    have hstray : e.tag ≠ .head := by obtain ⟨hg, -⟩ | ⟨hg, -⟩ | ⟨hg, -⟩ := hc <;> rw [hg] <;> decide
    refine ⟨fun hx => ?_, fun hx => ?_, fun hx => ?_, fun hx hg => ?_, fun x hx hg hcontext hwords => ?_⟩
    · rw [hx] at hpacket
      refine hdone (linkFault (s.popped rest)) ?_
      cases hg : e.tag with
      | head => exact absurd hg hstray
      | data => simp only [actEntry, actData, hg, hpacket]
      | mark => simp only [actEntry, actMark, hg, hpacket]
      | close => simp only [actEntry, actEnd, hg, hpacket]
    · rw [hx] at hpacket
      cases hg : e.tag with
      | head => exact absurd hg hstray
      | data => exact hdone (dropHeader .discard (s.popped rest)) (by simp only [actEntry, actData, hg, hpacket])
      | mark => exact hdone (dropHeader .discard (s.popped rest)) (by simp only [actEntry, actMark, hg, hpacket])
      | close => exact hdone (dropHeader .none (s.popped rest)) (by simp only [actEntry, actEnd, hg, hpacket])
    · rw [hx] at hpacket
      have hsame : (s.entryGone rest).setPacket .discard = s.entryGone rest := by
        rw [← hx]
        rfl
      cases hg : e.tag with
      | head => exact absurd hg hstray
      | data =>
        rw [if_neg (by decide), hsame]
        exact hdone (s.popped rest) (by simp only [actEntry, actData, hg, hpacket])
      | mark =>
        rw [if_neg (by decide), hsame]
        exact hdone (s.popped rest) (by simp only [actEntry, actMark, hg, hpacket])
      | close => exact hdone ((s.popped rest).setPacket .none) (by simp only [actEntry, actEnd, hg, hpacket])
    · rw [hx] at hpacket
      exact hdone (s.popped rest) (by simp only [actEntry, actData, hg, hpacket])
    · rw [hx] at hpacket
      have hcontext' : (s.popped rest).scan.context = some x := hcontext
      exact hdone (linkFault (s.popped rest))
        (by simp only [actEntry, actData, hg, hpacket, hcontext', if_neg (Nat.not_lt.2 hwords)])

end Sys2Proof.Machine
end

section
/-! Headers: the checks of word A, the securing of a block, and the opening of a packet (O33, O35). -/

namespace Sys2Proof.Machine

/-! ## Securing a block, in the words of the statements -/

theorem newBlock_eq (s : State) (slot : Nat) : newBlock s slot = securedBlock s slot := by
  have hstart : (if s.tracker.heldEvents = [] then s.tracker.point else s.tracker.heldStart.getD s.tracker.point) =
      securedStart s.tracker := by
    unfold securedStart
    cases s.tracker.heldEvents <;> rfl
  unfold newBlock
  dsimp only
  rw [hstart]
  rfl

theorem slotTaken_eq (s : State) (slot : Nat) : s.slotTaken slot = takeSlot slot s := by
  rw [State.slotTaken, newBlock_eq]
  rfl

theorem lowestFree_iff {s : State} {slot : Nat} : LowestFree s slot ↔ freeSlot s = some slot := by
  unfold LowestFree freeSlot
  rw [List.find?_range_eq_some]
  simp [Config.slotCount, and_comm, and_assoc]

theorem noneFree_iff {s : State} : NoneFree s ↔ freeSlot s = none := by
  unfold NoneFree freeSlot
  simp [Config.slotCount]

/-- Securing a block that a statement calls ready. -/
theorem secure_ready {s u : State} {b : Block} (h : BlockReady s u b) : secure s = .done u := by
  obtain ⟨hfill, rfl⟩ | ⟨slot, hnone, hcount, hfree, -, rfl⟩ := h
  · rw [secure, if_pos (by rw [hfill]; rfl)]
  · have hcount' : s.window.counter < Config.maxBlocks := hcount
    rw [secure, if_neg (by rw [hnone]; decide), if_neg (Nat.not_le.2 hcount'), lowestFree_iff.1 hfree, slotTaken_eq]

theorem secure_stalls {s : State} (hnone : fillingBlock s = none) (hcount : s.window.counter < 2 ^ 28) (hfree : NoneFree s) :
    secure s = .stalled (beginStall s) 0 := by
  have hcount' : s.window.counter < Config.maxBlocks := hcount
  rw [secure, if_neg (by rw [hnone]; decide), if_neg (Nat.not_le.2 hcount'), noneFree_iff.1 hfree]

theorem secure_ended {s : State} (hnone : fillingBlock s = none) (hcount : 2 ^ 28 ≤ s.window.counter) :
    secure s = .ended (endInput s) := by
  have hcount' : Config.maxBlocks ≤ s.window.counter := hcount
  rw [secure, if_neg (by rw [hnone]; decide), if_pos hcount']

/-! ## The checks of word A -/

theorem headMask_toNat (a : Word32) : (headMask a).toNat = a.toNat % 256 := by
  simp [headMask]

theorem headCount_eq (a : Word32) : headCount a = a.toNat / 65536 := by
  simp [headCount, Nat.shiftRight_eq_div_pow]
  omega

theorem headerValid_iff {s : State} {a : Word32} :
    headerValid s a = true ↔ a.toNat % 256 = s.pass.laneMask.toNat ∧ 1 ≤ a.toNat / 65536 ∧ a.toNat / 65536 ≤ 1024 := by
  have hmask : headMask a = s.pass.laneMask.zeroExtend 8 ↔ a.toNat % 256 = s.pass.laneMask.toNat := by
    rw [← BitVec.toNat_inj, headMask_toNat, BitVec.toNat_setWidth, Nat.mod_eq_of_lt (a := s.pass.laneMask.toNat) (by omega)]
  simp only [headerValid, Bool.and_eq_true, beq_iff_eq, decide_eq_true_eq, hmask, headCount_eq, Config.maxPacket, and_assoc]

/-! ## Word B -/

/-- Word B taken in HEADER: the header's own checks, and then the judgement in the block secured. -/
theorem actHead_header {s : State} {e : FifoEntry} {a : Word32} {u : State} (hhead : e.tag = .head)
    (hpacket : s.scan.packet = .header) (hheld : s.scan.heldWord = some a) (hvalid : headerValid s a = true)
    (hsecure : secure s = .done u) : actEntry e s = judgeHeader a e.word u := by
  simp only [actEntry, hhead, actHead, hpacket, takeWordB, hheld, hvalid, if_true, hsecure, Run.andThen]

theorem openPacket_eq (a : Word32) (s : State) :
    openPacket a s =
      s.setScan { s.scan with packet := .opened, heldWord := none, context := some (packetAt s a s.scan.next) } := by
  rw [openPacket, packetAt, ← headCount_eq]
  rfl

theorem packetAt_congr {s t : State} (h : t.pass = s.pass) (a : Word32) (q : Position) : packetAt t a q = packetAt s a q := by
  unfold packetAt activeLanes
  rw [h]

theorem judgeHeader_expected {a b : Word32} {s : State} (h : b = s.scan.next.setWidth 32) :
    judgeHeader a b s = .done (openPacket a s) := by
  unfold judgeHeader
  dsimp only
  rw [if_pos (by rw [h, BitVec.sub_self]; rfl)]

/-- A block ready for the part is ready once the oldest entry has left the FIFO. -/
theorem BlockReady.popped {s u : State} {b : Block} (h : BlockReady s u b) (rest : List FifoEntry) :
    BlockReady (s.popped rest) (u.setScan { s.scan with fifo := rest }) b := by
  obtain ⟨hfill, rfl⟩ | ⟨slot, hnone, hcount, hfree, hb, rfl⟩ := h
  · exact .inl ⟨hfill, rfl⟩
  · exact .inr ⟨slot, hnone, hcount, hfree, hb, rfl⟩

/-- Settles O33. -/
theorem headTakenHoldsChecksAndOpens : Obligations.HeadTakenHoldsChecksAndOpens := by
  intro s e rest htake hhead hloss
  have hdone : ∀ u, actEntry e (s.popped rest) = .done u →
      exec .headTaken s = .next (settle (u.setScan { u.scan with suspended := none })) := by
    intro u hu
    have htaken := exec_taken_done htake hloss hu
    rwa [hhead] at htaken
  have hall : exec .headTaken s = .next (settle (finishEntry e (actEntry e (s.popped rest)))) := by
    have htaken := exec_taken htake
    rwa [hhead] at htaken
  constructor
  · intro hpacket
    refine hdone (takeWordA e.word (s.popped rest)) ?_
    obtain h | h := hpacket <;>
      · have hpacket : (s.popped rest).scan.packet = _ := h
        simp only [actEntry, hhead, actHead, hpacket]
  · intro a hpacket hheld valid
    have hpacket' : (s.popped rest).scan.packet = .header := hpacket
    have hheld' : (s.popped rest).scan.heldWord = some a := hheld
    have hvalid : headerValid (s.popped rest) a = true ↔ valid := headerValid_iff
    have hinvalid : ¬valid → actEntry e (s.popped rest) = .done (dropHeader .discard (s.popped rest)) := fun hv => by
      simp only [actEntry, hhead, actHead, hpacket', takeWordB, hheld', Bool.not_eq_true _ ▸ mt hvalid.1 hv,
        Bool.false_eq_true, if_false]
    refine ⟨fun hv => hdone _ (hinvalid hv), ?_⟩
    intro opens
    have hopens : ∀ u b, valid → BlockReady s u b → e.word = s.scan.next.setWidth 32 → opens u := fun u b hv hready hword => by
      have hjudge := actHead_header hhead hpacket' hheld' (hvalid.2 hv) (secure_ready (hready.popped rest))
      rw [judgeHeader_expected (s := u.setScan { s.scan with fifo := rest }) hword, openPacket_eq] at hjudge
      refine (hdone _ hjudge).trans ?_
      obtain ⟨-, rfl⟩ | ⟨slot, -, -, -, -, rfl⟩ := hready <;> rfl
    have hsecured : valid → ∀ r : Run, secure (s.popped rest) = r → (∀ u, r ≠ .done u) → actEntry e (s.popped rest) = r := by
      intro hv r hr hne
      simp only [actEntry, hhead, actHead, hpacket', takeWordB, hheld', hvalid.2 hv, if_true, hr]
      cases r with
      | done u => exact absurd rfl (hne u)
      | stalled u n => rfl
      | ended u => rfl
    refine ⟨fun hv hfill hword => ?_, fun slot hv hnone hcount hfree hword => ?_, fun hv hnone hcount hfree => ?_,
      fun hv hnone hcount => ?_⟩
    · obtain ⟨b, hb⟩ := Option.isSome_iff_exists.1 hfill
      exact hopens s b hv (.inl ⟨hb, rfl⟩) hword
    · exact hopens _ _ hv (.inr ⟨slot, hnone, hcount, hfree, rfl, rfl⟩) hword
    · rw [hall, hsecured hv _ (secure_stalls hnone hcount hfree) (fun u h => nomatch h)]
      rfl
    · rw [hall, hsecured hv _ (secure_ended hnone hcount) (fun u h => nomatch h)]
      rfl

/-! ## A slip -/

/-- What a block made ready leaves as it was. -/
theorem BlockReady.frame {s u : State} {b : Block} (h : BlockReady s u b) :
    u.pass = s.pass ∧ u.scan = s.scan ∧ u.catalogue = s.catalogue ∧ u.engines = s.engines ∧ u.ports = s.ports ∧
      u.rights = s.rights ∧ u.pending = s.pending ∧ u.window.memory = s.window.memory := by
  obtain ⟨-, rfl⟩ | ⟨slot, -, -, -, -, rfl⟩ := h <;> exact ⟨rfl, rfl, rfl, rfl, rfl, rfl, rfl, rfl⟩

/-- An entry is added to a part whose catalogue and ports stand as another's do, in a part whose catalogue and event sets
stand as another's do. -/
theorem EntryAdded.congr {s v t w : State} {e : Entry} (h : EntryAdded v t e) (hcat : v.catalogue = s.catalogue)
    (hports : v.ports = s.ports) (hcat' : w.catalogue = t.catalogue)
    (hevents : ∀ p, (w.ports.get p).events = (t.ports.get p).events) : EntryAdded s w e := by
  unfold EntryAdded assignedNumber at h
  rw [hcat, hports] at h
  obtain ⟨hperm, hcounter, hcursors, hev⟩ := h
  exact ⟨hcat' ▸ hperm, hcat' ▸ hcounter, hcat' ▸ hcursors, fun p => (hevents p).trans (hev p)⟩

/-- An entry listed where the catalogue has room. -/
def listedIfRoom (e : Entry) (s : State) : State := if s.catalogue.entries.length < 2048 then listEntry e s else s

theorem listedIfRoom_frame (e : Entry) (s : State) :
    (listedIfRoom e s).pending = s.pending ∧ (listedIfRoom e s).pass = s.pass ∧ (listedIfRoom e s).scan = s.scan ∧
      (listedIfRoom e s).tracker = s.tracker ∧ (listedIfRoom e s).window = s.window ∧
      (listedIfRoom e s).engines = s.engines ∧ (listedIfRoom e s).rights = s.rights ∧ portsQuiet s (listedIfRoom e s) := by
  have hquiet : portsQuiet s (listEntry e s) := fun p => by
    rw [listEntry_ports]
    split
    · exact raise_quiet ..
    · rfl
  obtain ⟨h1, h2, h3, h4, h5, h6, h7⟩ := listEntry_frame e s
  unfold listedIfRoom
  split
  · exact ⟨h1, h2, h3, h4, h5, h6, h7, hquiet⟩
  · exact ⟨rfl, rfl, rfl, rfl, rfl, rfl, rfl, fun _ => rfl⟩

theorem listedIfRoom_added {e : Entry} {s : State} (h : s.catalogue.entries.length < 2048) :
    EntryAdded s (listedIfRoom e s) e := by
  rw [listedIfRoom, if_pos h]
  exact entryAdded_of_listed e rfl (fun _ => rfl)

theorem listedIfRoom_full {e : Entry} {s : State} (h : 2048 ≤ s.catalogue.entries.length) : listedIfRoom e s = s :=
  if_neg (Nat.not_lt.2 h)

/-- The entry of a slip. -/
def slipEntry (start : Position) (x y : Word32) : Entry :=
  { number := 0, kind := .slip, lane := none, start := start, span := none, peak := none
    decision := none, decidedBy := .default, reported := some ⟨x, y⟩, fixed := false }

/-- The SLIP film flag of the FILLING block, and the tracker's reference moved. -/
def State.slipped (s : State) : State := trackerSlip s.scan.next (flagFilling .slip s)

theorem State.slipped_tracker (s : State) :
    s.slipped.tracker = { s.tracker with lastMark := none, slipPosition := some s.scan.next } := rfl

theorem State.slipped_window (s : State) :
    s.slipped.window =
      { s.window with
        blocks := s.window.blocks.map (fun c => if c.state = .filling then { c with filmSlip := true } else c) } := rfl

theorem State.slipped_scan (s : State) : s.slipped.scan = s.scan := rfl

/-- A slip judged: an entry where there is room, the film flag, and the tracker's reference. -/
theorem judgeSlip_eq (x y : Word32) (s : State) : judgeSlip x y s = (listedIfRoom (slipEntry s.scan.next x y) s).slipped := by
  have hscan := (listedIfRoom_frame (slipEntry s.scan.next x y) s).2.2.1
  have hlisted : (if catalogueFull s = true then s else listEntry (slipEntry s.scan.next x y) s) =
      listedIfRoom (slipEntry s.scan.next x y) s := by
    by_cases hroom : s.catalogue.entries.length < 2048
    · rw [show catalogueFull s = false from decide_eq_false (Nat.not_le.2 hroom), if_neg (by decide), listedIfRoom, if_pos hroom]
    · rw [show catalogueFull s = true from decide_eq_true (Nat.not_lt.1 hroom), if_pos rfl, listedIfRoom, if_neg hroom]
  rw [State.slipped, hscan, ← hlisted]
  rfl

theorem judgeHeader_slip {a b : Word32} {s : State} (hne : (b - s.scan.next.setWidth 32).toInt ≠ 0)
    (hgap : ¬(1 ≤ (b - s.scan.next.setWidth 32).toInt ∧ (b - s.scan.next.setWidth 32).toInt ≤ 2048)) :
    judgeHeader a b s = .done (openPacket a (judgeSlip (s.scan.next.setWidth 32) b s)) := by
  unfold judgeHeader
  exact (if_neg hne).trans (if_neg hgap)

/-- Settles O35. -/
theorem slipKeepsNumbering : Obligations.SlipKeepsNumbering := by
  intro s u e rest a b htake hhead hloss hpacket hheld hvalid hready d hd hgap
  have hready' := hready.popped rest
  have hjudge := actHead_header hhead (show (s.popped rest).scan.packet = .header from hpacket)
    (show (s.popped rest).scan.heldWord = some a from hheld) hvalid (secure_ready hready')
  have htracker : (u.setScan { s.scan with fifo := rest }).tracker = u.tracker := rfl
  have hwindow : (u.setScan { s.scan with fifo := rest }).window = u.window := rfl
  generalize u.setScan { s.scan with fifo := rest } = v at hready' hjudge htracker hwindow
  obtain ⟨hpass, hscan, hcat, hengines, hports, hrights, hpending, -⟩ := hready'.frame
  have hscan' : v.scan = { s.scan with fifo := rest } := hscan
  rw [judgeHeader_slip (by rwa [hscan']) (by rwa [hscan']), openPacket_eq, judgeSlip_eq, hscan'] at hjudge
  have htaken := exec_taken_done htake hloss hjudge
  rw [hhead] at htaken
  obtain ⟨fpending, fpass, fscan, ftracker, fwindow, fengines, frights, fquiet⟩ :=
    listedIfRoom_frame (slipEntry s.scan.next (s.scan.next.setWidth 32) e.word) v
  have hlength : v.catalogue.entries.length = s.catalogue.entries.length := congrArg (fun c => c.entries.length) hcat
  have hadded := fun hroom => listedIfRoom_added (e := slipEntry s.scan.next (s.scan.next.setWidth 32) e.word)
    (s := v) (hlength.trans_lt hroom)
  have hfull := fun hfull => listedIfRoom_full (e := slipEntry s.scan.next (s.scan.next.setWidth 32) e.word) (s := v)
    (hlength.symm ▸ hfull)
  generalize listedIfRoom (slipEntry s.scan.next (s.scan.next.setWidth 32) e.word) v = w at *
  have hports' : ∀ t : State, ∀ p, ((settle t).ports.get p).events = (t.ports.get p).events ∧
      ((settle t).ports.get p).quiet = (t.ports.get p).quiet := fun t p => by rw [settle_port]; exact ⟨rfl, rfl⟩
  rw [packetAt_congr (s := s) (t := w.slipped) (fpass.trans hpass), State.slipped_scan, fscan, hscan'] at htaken
  refine ⟨_, htaken, fun hroom => ?_, fun hx => ?_, ?_, ?_, ?_, ?_, ?_, ?_, ?_, fun p => ?_⟩
  · exact (hadded hroom).congr hcat hports rfl (fun p => (hports' _ p).1)
  · refine ⟨(congrArg State.catalogue (hfull hx)).trans hcat, fun p => (hports' _ p).1.trans ?_⟩
    exact congrArg (fun q : PerPort PortState => (q.get p).events) ((congrArg State.ports (hfull hx)).trans hports)
  · refine (State.slipped_tracker _).trans ?_
    rw [ftracker, fscan, hscan', htracker]
  · refine (State.slipped_window _).trans ?_
    rw [fwindow, hwindow]
  · rfl
  · exact fpass.trans hpass
  · exact fengines.trans hengines
  · exact frights.trans hrights
  · exact fpending.trans hpending
  · exact (hports' _ p).2.trans ((fquiet p).trans (congrArg (fun q : PerPort PortState => (q.get p).quiet) hports))

end Sys2Proof.Machine
end

section
/-! The Perforation Tracker: how a mark is classed (O38), locks and holdovers (O39), and the timeout (O42). -/

namespace Sys2Proof.Machine

/-! ## Publishing an event -/

/-- What publishing an event leaves as it was. -/
theorem publish_frame (before : LockPoint) (k : TrackerEventKind) (want : Position) (s : State) :
    let t := publish before k want s
    t.tracker.point = s.tracker.point ∧ t.tracker.lastMark = s.tracker.lastMark ∧
      t.tracker.slipPosition = s.tracker.slipPosition ∧ t.tracker.history = s.tracker.history ∧
      t.tracker.validRun = s.tracker.validRun ∧ t.tracker.rejectRun = s.tracker.rejectRun ∧
      t.catalogue = s.catalogue ∧ t.ports = s.ports := by
  intro t
  obtain ⟨b, -, -, h⟩ | ⟨-, -, h⟩ | ⟨-, h⟩ := publish_cases before k want s <;>
    · change t = _ at h
      rw [h]
      exact ⟨rfl, rfl, rfl, rfl, rfl, rfl, rfl, rfl⟩

theorem publish_lastPublished (before : LockPoint) (k : TrackerEventKind) (want : Position) (s : State) :
    (publish before k want s).tracker.lastPublished = some (publishPosition s.tracker want) := by
  obtain ⟨b, -, -, h⟩ | ⟨-, -, h⟩ | ⟨-, h⟩ := publish_cases before k want s <;> rw [h] <;> rfl

theorem blockHolding_eq_none {s : State} {p : Position} :
    blockHolding s p = none ↔ ∀ b ∈ s.window.blocks, (b.number : Int) ≠ blockNumberOf s p := by
  simp [blockHolding]

theorem blockHolding_of_mem {s : State} (hw : WindowLegal s) {b : Block} {p : Position} (hb : b ∈ s.window.blocks)
    (hp : (b.number : Int) = blockNumberOf s p) : blockHolding s p = some b := by
  cases h : blockHolding s p with
  | none => exact absurd hp (blockHolding_eq_none.1 h b hb)
  | some c =>
    have hc : (c.number : Int) = blockNumberOf s p := by simpa using List.find?_some h
    have hnum : c.number = b.number := by omega
    rw [hw.eq_of_number (List.mem_of_find?_eq_some h) hb hnum]

theorem blockHolding_congr {s t : State} (hwindow : t.window = s.window) (hpass : t.pass = s.pass) (p : Position) :
    blockHolding t p = blockHolding s p := by
  unfold blockHolding blockNumberOf passOffset
  rw [hwindow, hpass]

theorem yetToSecure_congr {s t : State} (hwindow : t.window = s.window) (hpass : t.pass = s.pass) (p : Position) :
    yetToSecure t p = yetToSecure s p := by
  unfold yetToSecure firstPositionOf
  rw [hwindow, hpass]

theorem appendEvent_eq {α : Type} (es : List α) (e : α) :
    appendEvent es e = (if es.length < 17 then es else es.dropLast) ++ [e] :=
  (apply_ite (· ++ [e]) (es.length < 17) es es.dropLast).symm

theorem placeEvent_window (b : Block) (pos : Position) (k : TrackerEventKind) (s : State) :
    (placeEvent b pos k s).window =
      { s.window with
        blocks := s.window.blocks.map (fun c =>
          if c.number = b.number then
            { c with
              events := (if c.events.length < 17 then c.events else c.events.dropLast) ++ [⟨(pos - b.first).toNat, k⟩] }
          else if b.number < c.number then { c with start := s.tracker.point } else c) } := by
  simp only [placeEvent, appendEvent_eq]
  rfl

/-- An event published from a legal window, its tracker's last published position and held events being the part's. -/
theorem eventPublished_publish {s u : State} (hw : WindowLegal s) (k : TrackerEventKind) (want : Position)
    (hwindow : u.window = s.window) (hpass : u.pass = s.pass) (hlast : u.tracker.lastPublished = s.tracker.lastPublished)
    (hheld : u.tracker.heldEvents = s.tracker.heldEvents) (hstart : u.tracker.heldStart = s.tracker.heldStart) :
    EventPublished s (publish s.tracker.point k want u) want k := by
  have hpos : publishPosition u.tracker want = publishPosition s.tracker want := by
    unfold publishPosition
    rw [hlast]
  have hholding := fun q => blockHolding_congr (s := s)
    (t := u.setTracker { u.tracker with lastPublished := some q }) hwindow hpass q
  have hyet := fun q => yetToSecure_congr (s := s)
    (t := u.setTracker { u.tracker with lastPublished := some q }) hwindow hpass q
  unfold EventPublished
  intro pos
  have hpos' : publishPosition s.tracker want = pos := rfl
  refine ⟨(publish_lastPublished ..).trans (congrArg some (hpos.trans hpos')), fun b hb hnum hstate => ?_, fun hnone hafter => ?_⟩
  · have hb' : blockHolding s pos = some b := blockHolding_of_mem hw hb hnum
    have hcase := publish_cases s.tracker.point k want u
    dsimp only at hcase
    rw [hpos, hpos', hholding, hb', hyet] at hcase
    obtain ⟨c, hc, -, h⟩ | ⟨hc, -⟩ | ⟨⟨c, hc, h1, h2⟩ | ⟨hc, -⟩, -⟩ := hcase
    · obtain rfl := Option.some.inj hc
      rw [h]
      refine ⟨hheld, hstart, ?_⟩
      refine (placeEvent_window ..).trans ?_
      rw [show (u.setTracker { u.tracker with lastPublished := some pos }).window = s.window from hwindow]
      rfl
    · exact nomatch hc
    · obtain rfl := Option.some.inj hc
      exact absurd hstate (not_or.2 ⟨h1, h2⟩)
    · exact nomatch hc
  · have hb' : blockHolding s pos = none := blockHolding_eq_none.2 hnone
    have hyet' : yetToSecure s pos = true := decide_eq_true hafter
    have hcase := publish_cases s.tracker.point k want u
    dsimp only at hcase
    rw [hpos, hpos', hholding, hb', hyet, hyet'] at hcase
    obtain ⟨c, hc, -⟩ | ⟨-, -, h⟩ | ⟨⟨c, hc, -⟩ | ⟨-, hc⟩, -⟩ := hcase
    · exact nomatch hc
    · rw [h]
      refine ⟨hwindow, ?_, ?_⟩
      · refine (appendEvent_eq u.tracker.heldEvents _).trans ?_
        rw [hheld]
      · change (if u.tracker.heldEvents = [] then some s.tracker.point else u.tracker.heldStart) = _
        rw [hheld, hstart]
    · exact nomatch hc
    · exact nomatch hc

/-! ## Marks -/

theorem rejectMark_plain {p : Position} {s : State} (h : ¬(s.tracker.point.lock = .locked ∧ s.tracker.rejectRun = 2)) :
    rejectMark p s = s.setTracker { s.tracker with rejectRun := min 3 (s.tracker.rejectRun + 1) } := if_neg h

theorem rejectMark_third {p l : Position} {s : State} (hlock : s.tracker.point.lock = .locked) (hrun : s.tracker.rejectRun = 2)
    (hlast : s.tracker.lastMark = some l) :
    rejectMark p s =
      enterHoldover (if (p - l).toInt < 0 then l else p) (s.setTracker { s.tracker with rejectRun := 3 }) := by
  unfold rejectMark
  dsimp only
  rw [if_pos ⟨hlock, hrun⟩, hlast, hrun]
  rfl

theorem raisedEverywhere_settle {e : Event} {t : State} (h : raisedEverywhere e t) (x : ScanInput) :
    raisedEverywhere e (settle (t.setScan x)) := fun p => by
  rw [settle_port]
  exact h p

/-- A MARK taken in an open packet. -/
theorem exec_mark {s : State} {e : FifoEntry} {rest : List FifoEntry} {x : PacketContext} (htake : s.canTake e rest)
    (hmark : e.tag = .mark) (hloss : e.loss = false) (hpacket : s.scan.packet = .opened ∨ s.scan.packet = .damaged)
    (hcontext : s.scan.context = some x) :
    exec .markTaken s =
      if e.word.toNat ≤ x.count then
        .next (settle ((trackerMark (x.first + e.word.setWidth 40) (s.popped rest)).setScan
          { s.scan with fifo := rest, suspended := none }))
      else .next (settle (linkFault (s.entryGone rest))) := by
  have hcontext' : (s.popped rest).scan.context = some x := hcontext
  have hact : actEntry e (s.popped rest) = if e.word.toNat ≤ x.count then
      .done (trackerMark (x.first + e.word.setWidth 40) (s.popped rest)) else .done (linkFault (s.popped rest)) := by
    obtain h | h := hpacket <;>
      · have hpacket : (s.popped rest).scan.packet = _ := h
        simp only [actEntry, hmark, actMark, hpacket, hcontext']
  split at hact
  · next hcount =>
    have htaken := exec_taken_done htake hloss hact
    obtain ⟨-, -, hscan, -⟩ := (Updates.trackerMark (x.first + e.word.setWidth 40) (s.popped rest)).frame
    rw [hmark, hscan] at htaken
    rw [if_pos hcount]
    exact htaken
  · next hcount =>
    have htaken := exec_taken_done htake hloss hact
    rw [hmark] at htaken
    rw [if_neg hcount]
    exact htaken

/-- Settles O38. -/
theorem marksAreClassedByInterval : Obligations.MarksAreClassedByInterval := by
  intro s e rest x htake hmark hloss hpacket hcontext p u becomes
  have hexec := exec_mark htake hmark hloss hpacket hcontext
  have hbecomes : ∀ v, e.word.toNat ≤ x.count → trackerMark p (s.popped rest) = (s.popped rest).setTracker v → becomes v := by
    intro v hcount hv
    rw [if_pos hcount, hv] at hexec
    exact hexec
  refine ⟨fun hcount => ?_, fun hcount hnone => ?_, fun l hcount hlast => ?_⟩
  · rw [if_neg (Nat.not_le.2 hcount)] at hexec
    exact hexec
  · refine hbecomes _ hcount ?_
    unfold trackerMark
    dsimp only
    rw [show (s.popped rest).tracker.lastMark = none from hnone]
    rfl
  · intro i
    have hstep : trackerMark p (s.popped rest) =
        if i < s.pass.perfMin then rejectMark p (s.popped rest)
        else if i ≤ s.pass.perfMax then acceptMark p i.toNat (s.popped rest)
        else rejectMark p ((s.popped rest).setTracker { u with lastMark := some p, history := [], validRun := 0 }) := by
      unfold trackerMark
      dsimp only
      rw [show (s.popped rest).tracker.lastMark = some l from hlast]
      rfl
    refine ⟨fun hlow hreject => ?_, fun hlow hhigh hreject => ?_, fun hlow hhigh hrun => ?_⟩
    · exact hbecomes _ hcount (by rw [hstep, if_pos hlow]; exact rejectMark_plain hreject)
    · refine hbecomes _ hcount ?_
      rw [hstep, if_neg (by omega), if_neg (by omega)]
      exact rejectMark_plain (s := (s.popped rest).setTracker { u with lastMark := some p, history := [], validRun := 0 }) hreject
    · refine hbecomes _ hcount ?_
      rw [hstep, if_neg (by omega), if_pos hhigh]
      have hmin : min 8 (u.validRun + 1) = u.validRun + 1 := by omega
      have hne : ¬min 8 ((s.popped rest).tracker.validRun + 1) = 8 := fun h => by
        have : min 8 (u.validRun + 1) = 8 := h
        omega
      unfold acceptMark
      dsimp only
      rw [if_neg hne]
      exact congrArg (fun n => (s.popped rest).setTracker
        { u with lastMark := some p, rejectRun := 0, validRun := n, history := pushInterval u.history i.toNat }) hmin

/-! ## Locks and holdovers -/

/-- The tracker with the lock state HOLDOVER, before the event is published. -/
def Tracker.heldOver (t : Tracker) : Tracker :=
  { t with point := { t.point with lock := .holdover }, history := [], validRun := 0 }

/-- The entry to HOLDOVER: the tracker, and what it leaves as it was. -/
theorem enterHoldover_frame (want : Position) (u : State) :
    let t := enterHoldover want u
    t.tracker.point = ⟨.holdover, u.tracker.point.s8⟩ ∧ t.tracker.history = [] ∧ t.tracker.validRun = 0 ∧
      t.tracker.rejectRun = u.tracker.rejectRun ∧ t.tracker.lastMark = u.tracker.lastMark ∧
      t.tracker.slipPosition = u.tracker.slipPosition ∧ raisedEverywhere .humloss t ∧
      t.catalogue = u.catalogue ∧ portsQuiet u t := by
  intro t
  obtain ⟨fpoint, fmark, fslip, fhistory, fvalid, freject, fcat, fports⟩ := publish_frame u.tracker.point .holdover want
    (u.setTracker u.tracker.heldOver)
  refine ⟨fpoint, fhistory, fvalid, freject, fmark, fslip, raise_sets _ _, fcat, fun p => ?_⟩
  refine (raise_quiet _ _ p).trans ?_
  exact congrArg (fun q : PerPort PortState => (q.get p).quiet) fports

/-- The event that the entry to HOLDOVER publishes from a legal window. -/
theorem enterHoldover_published {s u : State} (hw : WindowLegal s) (want : Position) (hwindow : u.window = s.window)
    (hpass : u.pass = s.pass) (hpoint : u.tracker.point = s.tracker.point)
    (hlast : u.tracker.lastPublished = s.tracker.lastPublished)
    (hheld : u.tracker.heldEvents = s.tracker.heldEvents) (hstart : u.tracker.heldStart = s.tracker.heldStart) :
    EventPublished s (enterHoldover want u) want .holdover := by
  have hevent := eventPublished_publish hw .holdover want (u := u.setTracker u.tracker.heldOver) hwindow hpass hlast hheld hstart
  rw [← hpoint] at hevent
  exact hevent

/-- The eighth accepted interval in a row, from a legal window. -/
theorem acceptMark_spec {s u : State} (hw : WindowLegal s) (p : Position) (i : Nat) (hwindow : u.window = s.window)
    (hpass : u.pass = s.pass) (htracker : u.tracker = s.tracker) (hrun : 7 ≤ s.tracker.validRun) :
    let t := acceptMark p i u
    let h := pushInterval s.tracker.history i
    t.tracker.point = ⟨.locked, some h.sum⟩ ∧ t.tracker.history = h ∧ t.tracker.validRun = 8 ∧ t.tracker.rejectRun = 0 ∧
      t.tracker.lastMark = some p ∧ t.tracker.slipPosition = s.tracker.slipPosition ∧ t.catalogue = u.catalogue ∧ portsQuiet u t ∧
      (s.tracker.point.lock ≠ .locked → EventPublished s t p (.lock h.sum) ∧ raisedEverywhere .humlock t) ∧
      (s.tracker.point.lock = .locked → EventPublished s t p (.accept h.sum) ∧ t.ports = u.ports) := by
  intro t h
  set v := u.setTracker
    { s.tracker with lastMark := some p, rejectRun := 0, history := h, validRun := 8, point := ⟨.locked, some h.sum⟩ } with hv
  have ht : t = if s.tracker.point.lock = .locked then publish s.tracker.point (.accept h.sum) p v
      else raise .humlock (publish s.tracker.point (.lock h.sum) p v) := by
    have hmin : min 8 (s.tracker.validRun + 1) = 8 := by omega
    change acceptMark p i u = _
    unfold acceptMark
    dsimp only
    rw [htracker, hmin, if_pos rfl]
  have hfacts := fun k => publish_frame s.tracker.point k p v
  have hevent := fun k => eventPublished_publish hw k p (u := v) hwindow hpass rfl rfl rfl
  have hports : ∀ k x, ((publish s.tracker.point k p v).ports.get x).quiet = (u.ports.get x).quiet := fun k x =>
    congrArg (fun q : PerPort PortState => (q.get x).quiet) (hfacts k).2.2.2.2.2.2.2
  clear_value t
  subst ht
  by_cases hlock : s.tracker.point.lock = .locked
  · obtain ⟨fpoint, fmark, fslip, fhistory, fvalid, freject, fcat, fports⟩ := hfacts (.accept h.sum)
    simp only [if_pos hlock]
    exact ⟨fpoint, fhistory, fvalid, freject, fmark, fslip, fcat, hports _, fun hne => absurd hlock hne,
      fun _ => ⟨hevent _, fports⟩⟩
  · obtain ⟨fpoint, fmark, fslip, fhistory, fvalid, freject, fcat, fports⟩ := hfacts (.lock h.sum)
    simp only [if_neg hlock]
    exact ⟨fpoint, fhistory, fvalid, freject, fmark, fslip, fcat, fun x => (raise_quiet _ _ x).trans (hports _ x),
      fun _ => ⟨hevent _, raise_sets _ _⟩, fun h => absurd h hlock⟩

/-- Settles O39. -/
theorem lockAndHoldoverFollowTheRuns : Obligations.LockAndHoldoverFollowTheRuns := by
  intro s e rest x l htake hmark hloss hpacket hcontext hcount hlast hw p i h frame
  have hexec := exec_mark htake hmark hloss hpacket hcontext
  rw [if_pos hcount] at hexec
  have hframe : ∀ v : State, Updates (s.popped rest) v → v.catalogue = s.catalogue →
      v.tracker.slipPosition = s.tracker.slipPosition → portsQuiet s v →
      frame (settle (v.setScan { s.scan with fifo := rest, suspended := none })) := by
    intro v hv hcat hslip hquiet
    obtain ⟨hpending, hpass, -, hengines, hrights, hmemory⟩ := hv.frame
    refine ⟨hpass, hmemory, hcat, hengines, hrights, hpending, rfl, hslip, fun q => ?_⟩
    rw [settle_port]
    exact hquiet q
  have hstep : trackerMark p (s.popped rest) =
      if i < s.pass.perfMin then rejectMark p (s.popped rest)
      else if i ≤ s.pass.perfMax then acceptMark p i.toNat (s.popped rest)
      else rejectMark p ((s.popped rest).setTracker { s.tracker with lastMark := some p, history := [], validRun := 0 }) := by
    unfold trackerMark
    dsimp only
    rw [show (s.popped rest).tracker.lastMark = some l from hlast]
    rfl
  have hupdates := Updates.trackerMark p (s.popped rest)
  refine ⟨fun hlow hhigh hrun => ?_, fun hout hlock hreject => ?_⟩
  · rw [hstep, if_neg (by omega), if_pos hhigh] at hupdates
    rw [show x.first + e.word.setWidth 40 = p from rfl, hstep, if_neg (by omega), if_pos hhigh] at hexec
    obtain ⟨hpoint, hhistory, hvalid, hrejected, hlastMark, hslip, hcat, hquiet, hlocks, hstays⟩ :=
      acceptMark_spec (u := s.popped rest) hw p i.toNat rfl rfl rfl hrun
    refine ⟨_, hexec, hpoint, hhistory, hvalid, hrejected, hlastMark,
      fun hne => ⟨(hlocks hne).1, raisedEverywhere_settle (hlocks hne).2 _⟩, fun hlocked => ?_, hframe _ hupdates hcat hslip hquiet⟩
    obtain ⟨hevent, hports⟩ := hstays hlocked
    refine ⟨hevent, fun q => ?_⟩
    rw [settle_port]
    exact congrArg (fun r : PerPort PortState => (r.get q).events) hports
  · have hheld : ∀ (v : Tracker) (want : Position), v.point = s.tracker.point → v.lastPublished = s.tracker.lastPublished →
        v.heldEvents = s.tracker.heldEvents → v.heldStart = s.tracker.heldStart → v.slipPosition = s.tracker.slipPosition →
        v.rejectRun = 3 → v.lastMark = some (if i < s.pass.perfMin then l else p) →
        trackerMark p (s.popped rest) = enterHoldover want ((s.popped rest).setTracker v) →
        want = (if i < s.pass.perfMin ∧ i < 0 then l else p) →
        ∃ t, exec .markTaken s = .next t ∧ t.tracker.point = ⟨.holdover, s.tracker.point.s8⟩ ∧ t.tracker.history = [] ∧
          t.tracker.validRun = 0 ∧ t.tracker.rejectRun = 3 ∧
          t.tracker.lastMark = some (if i < s.pass.perfMin then l else p) ∧
          EventPublished s t (if i < s.pass.perfMin ∧ i < 0 then l else p) .holdover ∧
          raisedEverywhere .humloss t ∧ frame t := by
      intro v want hpoint hpublished hevents hstart hslip hrun hmoved hmark hwant
      rw [show x.first + e.word.setWidth 40 = p from rfl, hmark] at hexec
      rw [hmark] at hupdates
      obtain ⟨fpoint, fhistory, fvalid, freject, fmark, fslip, fraised, fcat, fquiet⟩ :=
        enterHoldover_frame want ((s.popped rest).setTracker v)
      have fevent := enterHoldover_published (u := (s.popped rest).setTracker v) hw want rfl rfl hpoint hpublished hevents hstart
      have fpoint' := fpoint.trans (congrArg (fun y : LockPoint => (⟨.holdover, y.s8⟩ : LockPoint)) hpoint)
      exact ⟨_, hexec, fpoint', fhistory, fvalid, freject.trans hrun, fmark.trans hmoved, hwant ▸ fevent,
        raisedEverywhere_settle fraised _, hframe _ hupdates fcat (fslip.trans hslip) fquiet⟩
    by_cases hlow : i < s.pass.perfMin
    · refine hheld { s.tracker with rejectRun := 3 } (if i < 0 then l else p) rfl rfl rfl rfl rfl rfl ?_ ?_ ?_
      · rw [if_pos hlow]
        exact hlast
      · rw [hstep, if_pos hlow]
        exact rejectMark_third hlock hreject hlast
      · simp only [hlow, true_and]
    · have hhigh : ¬i ≤ s.pass.perfMax := by omega
      refine hheld { s.tracker with rejectRun := 3, lastMark := some p, history := [], validRun := 0 } p rfl rfl rfl rfl rfl rfl
        (by rw [if_neg hlow]) ?_ (by rw [if_neg (fun h => hlow h.1)])
      rw [hstep, if_neg hlow, if_neg hhigh,
        rejectMark_third (s := (s.popped rest).setTracker { s.tracker with lastMark := some p, history := [], validRun := 0 })
          (l := p) hlock hreject rfl, ite_self]
      rfl

/-! ## The timeout -/

theorem timeoutReference_eq (t : Tracker) : timeoutReference t = t.lastMark.or t.slipPosition := by
  unfold timeoutReference
  cases t.lastMark <;> rfl

theorem timesOut_iff {s : State} {q : Position} :
    timesOut s q = true ↔ ∃ r, s.tracker.lastMark.or s.tracker.slipPosition = some r ∧ s.tracker.point.lock = .locked ∧
      2 * (s.pass.perfMax : Int) < (q - r).toInt := by
  unfold timesOut
  rw [timeoutReference_eq]
  cases s.tracker.lastMark.or s.tracker.slipPosition with
  | none => simp
  | some r => simp [distance]

/-- A report of a position that times the tracker out. -/
theorem publish_in_block {before : LockPoint} {k : TrackerEventKind} {q : Position} {s : State} {b : Block}
    (hb : blockHolding s q = some b) (hstate : b.state = .filling ∨ b.state = .full)
    (hlast : ∀ p ∈ s.tracker.lastPublished, 0 ≤ (q - p).toInt) :
    (publish before k q s).tracker.lastPublished = some q ∧
      ∃ c ∈ (publish before k q s).window.blocks, c.number = b.number ∧ c.events.getLast? = some ⟨offsetIn b q, k⟩ := by
  have hpos : publishPosition s.tracker q = q := by
    unfold publishPosition
    cases h : s.tracker.lastPublished with
    | none => rfl
    | some p => exact if_neg (Int.not_lt.2 (hlast p h))
  refine ⟨(publish_lastPublished ..).trans (congrArg some hpos), ?_⟩
  have hcase := publish_cases before k q s
  dsimp only at hcase
  rw [hpos, blockHolding_congr (s := s) (t := s.setTracker { s.tracker with lastPublished := some q }) rfl rfl, hb] at hcase
  obtain ⟨c, hc, -, h⟩ | ⟨hc, -⟩ | ⟨⟨c, hc, h1, h2⟩ | ⟨hc, -⟩, -⟩ := hcase
  · obtain rfl := Option.some.inj hc
    rw [h, placeEvent_window]
    refine ⟨_, List.mem_map_of_mem (mem_of_blockHolding hb).1, ?_⟩
    rw [if_pos rfl]
    exact ⟨rfl, List.getLast?_concat ..⟩
  · exact nomatch hc
  · obtain rfl := Option.some.inj hc
    exact absurd hstate (not_or.2 ⟨h1, h2⟩)
  · exact nomatch hc

/-- Settles O42. -/
theorem timeoutEntersHoldover : Obligations.TimeoutEntersHoldover := by
  have hexec : ∀ s q, exec (.trackerTimeout q) s = completed (if reportable s q then trackerReport q s else s) := fun _ _ => rfl
  constructor
  · intro s q hended
    have hno : reportable s q = false := by
      obtain h | h := hended <;> simp [reportable, h]
    rw [hexec, hno]
    rfl
  · intro s q b hb hfill hstate hrunOut hinput reference
    have hwritten : writtenBlock s q = some b := by
      simp only [writtenBlock, hb, if_pos hfill]
    have hreport : reportable s q = true := by
      obtain h | h := hstate <;> simp [reportable, hrunOut, hinput, hwritten, h]
    rw [hexec, hreport, if_pos rfl]
    unfold trackerReport
    refine ⟨fun hno => ?_, fun r href hlock hfar => ?_⟩
    · rw [if_neg (fun h => ?_)]
      · rfl
      · obtain ⟨r, hr, hout⟩ := timesOut_iff.1 h
        exact hno r hr hout
    · rw [if_pos (timesOut_iff.2 ⟨r, href, hlock, hfar⟩)]
      obtain ⟨hpending, hpass, hscan, hengines, hrights, hmemory⟩ := (Updates.enterHoldover q hlock).frame
      obtain ⟨fpoint, fhistory, fvalid, freject, fmark, fslip, fraised, fcat, fquiet⟩ := enterHoldover_frame q s
      refine ⟨_, rfl, fpoint, fhistory, fvalid, fmark, fslip, freject, raisedEverywhere_settle fraised _, fun hlast => ?_, hpass,
        ?_, hmemory, fcat, hengines, hrights, hpending, fun p => ?_⟩
      · exact publish_in_block (s := s.setTracker s.tracker.heldOver)
          ((blockHolding_congr (s := s) (t := s.setTracker s.tracker.heldOver) rfl rfl q).trans hb) hstate hlast
      · have hready : readyOf (enterHoldover q s) = readyOf s := by rw [readyOf, readyOf, hpass, hscan]
        exact congrArg₂ (fun x b => ({ x with ready := b } : ScanInput)) hscan hready
      · rw [settle_port]
        exact fquiet p

end Sys2Proof.Machine
end

section
/-! The end of the run-out (O41): the packet truncated, the FILLING block ended, the final block set, and the end of the pass. -/

namespace Sys2Proof.Machine

/-! ## Entries removed -/

/-- The entries of a block removed, in the statement's terms (R67, R69). -/
theorem entriesRemoved_of {s t : State} {k : Nat} (h : t.catalogue = (removeEntriesOf k s).catalogue) :
    EntriesRemoved s t k := by
  have hstarts : ∀ e, startsIn s k e = decide (blockNumberOf s e.start = (k : Int)) := fun _ => rfl
  unfold EntriesRemoved
  rw [h]
  refine ⟨?_, rfl, fun x => ?_⟩
  · refine List.filter_congr fun e _ => ?_
    rw [hstarts, decide_not]
  · have hcursor : (removeEntriesOf k s).catalogue.cursors.get x =
        (s.catalogue.cursors.get x).afterRemoval s.catalogue.entries (startsIn s k) := by
      cases x <;> rfl
    rw [hcursor]
    unfold Cursor.afterRemoval
    cases htarget : (s.catalogue.cursors.get x).target with
    | none => exact ⟨rfl, fun _ => htarget, fun m e hm => (nomatch hm)⟩
    | some n =>
      dsimp only
      refine ⟨?_, fun hn => (nomatch hn), fun m e hm he => ?_⟩
      · split
        · rfl
        · split <;> rfl
      · obtain rfl := Option.some.inj hm
        obtain ⟨tail, hdrop⟩ : ∃ tail, s.catalogue.entries.dropWhile (fun e => e.number != n) = e :: tail := by
          have hhead : (s.catalogue.entries.dropWhile (fun e => e.number != n)).head? = some e :=
            (List.find?_eq_head?_dropWhile_not _ _).symm.trans he
          exact List.head?_eq_some_iff.1 hhead
        rw [hdrop]
        dsimp only
        rw [hstarts]
        by_cases hin : blockNumberOf s e.start = (k : Int)
        · rw [if_pos (decide_eq_true hin), if_neg (not_not.2 hin), List.find?_cons_of_neg (by simpa using hin)]
          refine congrArg (Option.map _) (congrArg (fun f => List.find? f tail) (funext fun y => ?_))
          rw [hstarts, decide_not]
        · rw [if_neg (by simpa using hin), if_pos hin, htarget]

/-! ## The FILLING block of a legal window -/

/-- The FILLING block of a legal window is told by its state and by its number. -/
theorem WindowLegal.only_filling {s : State} (h : WindowLegal s) {b c : Block} (hb : fillingBlock s = some b)
    (hc : c ∈ s.window.blocks) (hwhich : c.state = .filling ∨ c.number = b.number) : c = b := by
  obtain ⟨hmem, -⟩ := mem_of_fillingBlock hb
  obtain hstate | hnum := hwhich
  · obtain ⟨older, hsplit, holder⟩ := h.filling_newest hb
    rw [hsplit] at hc
    obtain hc | hc := List.mem_append.1 hc
    · exact absurd hstate (holder c hc)
    · exact List.mem_singleton.1 hc
  · exact h.eq_of_number hc hmem hnum

/-- The highest number of blocks in rising order is that of the last. -/
theorem max?_numbers {bs : List Block} (h : bs.Pairwise (fun b c => b.number < c.number)) :
    (bs.map (fun b => b.number)).max? = bs.getLast?.map (fun b => b.number) := by
  rcases List.eq_nil_or_concat bs with rfl | ⟨older, b, rfl⟩
  · rfl
  · rw [List.concat_eq_append, List.getLast?_concat, Option.map_some, List.max?_eq_some_iff]
    rw [List.concat_eq_append, List.pairwise_append] at h
    refine ⟨by simp, fun n hn => ?_⟩
    obtain ⟨c, hc, rfl⟩ := List.mem_map.1 hn
    obtain hc | hc := List.mem_append.1 hc
    · exact (h.2.2 c hc b (List.mem_singleton_self b)).le
    · exact (congrArg Block.number (List.mem_singleton.1 hc)).le

/-! ## The packet truncated -/

/-- The FILLING block with the LINK flag that the truncation of a packet gives it. -/
def Block.truncated (open_ : Bool) (c : Block) : Block :=
  if c.state = .filling then { c with filmLink := c.filmLink || open_ } else c

theorem Block.truncated_frame (o : Bool) (c : Block) :
    (c.truncated o).state = c.state ∧ (c.truncated o).number = c.number ∧ (c.truncated o).fill = c.fill := by
  unfold Block.truncated
  split <;> exact ⟨rfl, rfl, rfl⟩

theorem Block.truncated_of_not_filling {o : Bool} {c : Block} (h : c.state ≠ .filling) : c.truncated o = c := if_neg h

/-- The packet truncated at the end of the run-out: what it flags and raises, and what it leaves as it was (R20). -/
theorem truncatePacket_window (s : State) :
    (truncatePacket s).window =
      { s.window with
        blocks := s.window.blocks.map
          (Block.truncated (decide (s.scan.packet = .opened ∨ s.scan.packet = .damaged))) } := by
  have hkept : s.window = { s.window with blocks := s.window.blocks.map (Block.truncated false) } := by
    have hid : Block.truncated false = id := by
      funext c
      unfold Block.truncated
      rw [Bool.or_false, ite_self]
      rfl
    rw [hid, List.map_id]
  have hflag : (flagFilling .link s).window = { s.window with blocks := s.window.blocks.map (Block.truncated true) } := by
    have htrue : Block.truncated true = fun b => if b.state = .filling then b.setFilm .link else b := by
      funext c
      unfold Block.truncated
      rw [Bool.or_true]
      rfl
    rw [htrue]
    rfl
  unfold truncatePacket
  cases h : s.scan.packet <;> dsimp only
  case opened => exact hflag
  case damaged => exact hflag
  all_goals exact hkept

theorem truncatePacket_frame (s : State) :
    (truncatePacket s).pending = s.pending ∧ (truncatePacket s).pass = s.pass ∧ (truncatePacket s).tracker = s.tracker ∧
      (truncatePacket s).catalogue = s.catalogue ∧ (truncatePacket s).engines = s.engines ∧
      (truncatePacket s).rights = s.rights ∧ portsQuiet s (truncatePacket s) := by
  unfold truncatePacket
  cases s.scan.packet <;> dsimp only
  case none => exact ⟨rfl, rfl, rfl, rfl, rfl, rfl, fun _ => rfl⟩
  case discard => exact ⟨rfl, rfl, rfl, rfl, rfl, rfl, fun _ => rfl⟩
  all_goals exact ⟨rfl, rfl, rfl, rfl, rfl, rfl, fun p => raise_quiet .link _ p⟩

theorem truncatePacket_raises {s : State} (h : s.scan.packet = .opened ∨ s.scan.packet = .damaged ∨ s.scan.packet = .header) :
    raisedEverywhere .link (truncatePacket s) := by
  unfold truncatePacket
  obtain h | h | h := h <;> rw [h] <;> exact raise_sets .link _

theorem fillingBlock_truncated {s u : State} {o : Bool} (h : u.window.blocks = s.window.blocks.map (Block.truncated o)) :
    fillingBlock u = (fillingBlock s).map (Block.truncated o) := by
  have hstate : ((fun b : Block => b.state == .filling) ∘ Block.truncated o) = fun b => b.state == .filling := by
    funext c
    rw [Function.comp_apply, (c.truncated_frame o).1]
  rw [fillingBlock, h, List.find?_map, hstate]
  rfl

theorem raisedEverywhere_raise {e : Event} {t : State} (h : raisedEverywhere e t) (e' : Event) :
    raisedEverywhere e (raise e' t) := fun p => by
  have hp := h p
  rw [raise_port]
  ext i hi
  have hbit := congrArg (fun v : BitVec 11 => v[i]) hp
  simp only [BitVec.getElem_and, BitVec.getElem_or] at hbit ⊢
  generalize ((t.ports.get p).events)[i] = x at hbit ⊢
  cases x <;> simp_all

/-! ## The end of the run-out -/

/-- The FILLING block at the end of the run-out. -/
def Block.ended (o : Bool) (b c : Block) : Block :=
  if c.number = b.number then
    { c with
      state := .full, events := c.events.filter (fun v => decide (v.offset < b.fill)), filmLink := c.filmLink || o }
  else c

/-- The blocks and the catalogue that the end of the run-out leaves: with no block FILLING, with an empty one, and with one
that holds a position. -/
theorem endFilling_truncated {s : State} (hw : WindowLegal s) :
    let o := decide (s.scan.packet = .opened ∨ s.scan.packet = .damaged)
    let v := endFilling (truncatePacket s)
    v.ports = (truncatePacket s).ports ∧
      ((fillingBlock s = none ∧ v.window.blocks = s.window.blocks ∧ v.catalogue = s.catalogue) ∨
        ∃ b, fillingBlock s = some b ∧
          ((b.fill = 0 ∧ v.window.blocks = s.window.blocks.filter (fun c => c.number ≠ b.number) ∧
              v.catalogue = (removeEntriesOf b.number s).catalogue) ∨
            (b.fill ≠ 0 ∧ v.window.blocks = s.window.blocks.map (Block.ended o b) ∧ v.catalogue = s.catalogue))) := by
  intro o v
  have hblocks : (truncatePacket s).window.blocks = s.window.blocks.map (Block.truncated o) :=
    congrArg Window.blocks (truncatePacket_window s)
  obtain ⟨-, hpass, -, hcat, -⟩ := truncatePacket_frame s
  have hfilling := fillingBlock_truncated hblocks
  obtain ⟨hnone, hv⟩ | ⟨b', hb', hfill, hv⟩ | ⟨b', hb', hfill, hv⟩ := endFilling_cases (truncatePacket s)
  · have hnone' : fillingBlock s = none := Option.map_eq_none_iff.1 (hfilling.symm.trans hnone)
    refine ⟨(congrArg State.ports hv :), .inl ⟨hnone', ?_, (congrArg State.catalogue hv :).trans hcat⟩⟩
    have hid : ∀ c ∈ s.window.blocks, c.truncated o = c := fun c hc =>
      Block.truncated_of_not_filling (fillingBlock_eq_none.1 hnone' c hc)
    rw [show v.window.blocks = (truncatePacket s).window.blocks from congrArg (fun t : State => t.window.blocks) hv,
      hblocks, List.map_congr_left hid, List.map_id']
  · obtain ⟨b, hb, rfl⟩ := Option.map_eq_some_iff.1 (hfilling.symm.trans hb')
    obtain ⟨-, hnum, hsame⟩ := b.truncated_frame o
    refine ⟨(congrArg State.ports hv :), .inr ⟨b, hb, .inl ⟨hsame.symm.trans hfill, ?_, ?_⟩⟩⟩
    · rw [show v.window.blocks = (truncatePacket s).window.blocks.filter (fun c => c.state != .filling) from
        congrArg (fun t : State => t.window.blocks) hv, hblocks, List.filter_map]
      have hfilter : s.window.blocks.filter ((fun c => c.state != .filling) ∘ Block.truncated o) =
          s.window.blocks.filter (fun c => decide (c.number ≠ b.number)) := by
        refine List.filter_congr fun c hc => ?_
        rw [Function.comp_apply, (c.truncated_frame o).1, Bool.eq_iff_iff, bne_iff_ne, decide_eq_true_iff]
        exact not_congr ⟨fun h => congrArg Block.number (hw.only_filling hb hc (.inl h)),
          fun h => (hw.only_filling hb hc (.inr h)) ▸ (mem_of_fillingBlock hb).2⟩
      rw [hfilter]
      refine (List.map_congr_left fun c hc => ?_).trans (List.map_id' _)
      obtain ⟨hc, hne⟩ := List.mem_filter.1 hc
      exact Block.truncated_of_not_filling fun hstate =>
        of_decide_eq_true hne (congrArg Block.number (hw.only_filling hb hc (.inl hstate)))
    · rw [show v.catalogue = (removeEntriesOf (b.truncated o).number (truncatePacket s)).catalogue from
        (congrArg State.catalogue hv :), hnum]
      have hstarts : startsIn (truncatePacket s) b.number = startsIn s b.number := by
        funext e
        unfold startsIn blockNumberOf passOffset
        rw [hpass]
      unfold removeEntriesOf
      rw [hstarts, hcat]
  · obtain ⟨b, hb, rfl⟩ := Option.map_eq_some_iff.1 (hfilling.symm.trans hb')
    obtain ⟨-, hnum, hsame⟩ := b.truncated_frame o
    refine ⟨(congrArg State.ports hv :),
      .inr ⟨b, hb, .inr ⟨fun h => hfill (hsame.trans h), ?_, (congrArg State.catalogue hv :).trans hcat⟩⟩⟩
    rw [show v.window.blocks = (truncatePacket s).window.blocks.map _ from congrArg (fun t : State => t.window.blocks) hv,
      hblocks, List.map_map]
    refine List.map_congr_left fun c hc => ?_
    obtain ⟨hbmem, hbstate⟩ := mem_of_fillingBlock hb
    rw [Function.comp_apply, (c.truncated_frame o).1, Block.ended]
    by_cases hnumber : c.number = b.number
    · obtain rfl := hw.only_filling hb hc (.inr hnumber)
      rw [if_pos hbstate, if_pos rfl, Block.truncated, if_pos hbstate]
    · have hstate : c.state ≠ .filling := fun h => hnumber (congrArg Block.number (hw.only_filling hb hc (.inl h)))
      rw [if_neg hstate, if_neg hnumber, Block.truncated_of_not_filling hstate]

/-- The report that all blocks are released, after the run-out: the pass ends, or goes on, and an empty window ends it
altogether (R47, R155, R156). -/
theorem reportReleased_ended {s : State} (hstate : s.pass.state = .closing) (hended : s.pass.runOutEnded = true) :
    let t := reportReleased s
    t.pass.runOutEnded = true ∧ t.window.blocks = s.window.blocks ∧ t.window.counter = s.window.counter ∧
      t.window.reviewHold = s.window.reviewHold ∧ t.window.releaseMark = s.window.releaseMark ∧
      (s.window.blocks ≠ [] → t.window.finalBlock = s.window.finalBlock ∧
        t.pass.state = if (∀ b ∈ s.window.blocks, b.state = .released) then .ended else .closing) ∧
      (s.window.blocks = [] → t.window.finalBlock = none ∧ t.pass.state = .idle ∧ raisedEverywhere .passend t) ∧
      (raisedEverywhere .link s → raisedEverywhere .link t) ∧ portsQuiet s t := by
  intro t
  by_cases hempty : s.window.blocks = []
  · have ht : t = raise .passend
        { s with pass := { s.pass with state := .idle }, window := { s.window with finalBlock := none } } := by
      simp only [t, reportReleased, endedToIdle]
      rw [if_pos ⟨hstate, hended, by rw [hempty]; rfl⟩, if_pos ⟨trivial, hempty⟩]
    rw [ht]
    exact ⟨hended, rfl, rfl, rfl, rfl, fun h => absurd hempty h, fun _ => ⟨rfl, rfl, raise_sets .passend _⟩,
      fun h => raisedEverywhere_raise h .passend, raise_quiet .passend _⟩
  · have ht := reportReleased_of_blocks hempty
    by_cases hall : ∀ b ∈ s.window.blocks, b.state = .released
    · rw [if_pos ⟨hstate, hended, hall⟩] at ht
      rw [show t = _ from ht, if_pos hall]
      exact ⟨hended, rfl, rfl, rfl, rfl, fun _ => ⟨rfl, rfl⟩, fun h => absurd h hempty, fun h => h, fun _ => rfl⟩
    · rw [if_neg (fun h => hall h.2.2)] at ht
      rw [show t = _ from ht, if_neg hall]
      exact ⟨hended, rfl, rfl, rfl, rfl, fun _ => ⟨rfl, hstate⟩, fun h => absurd h hempty, fun h => h, fun _ => rfl⟩

/-- Settles O41, by the three cases of the FILLING block at the end of the run-out. -/
theorem runOutEndSetsTheFinalBlock : Obligations.RunOutEndSetsTheFinalBlock := by
  intro s hw hclosing hrun hfifo hstall
  have hexec : exec .runOutEnd s = completed (reportReleased (ranOut s)) := by
    refine congrArg completed (if_pos ?_)
    unfold runOutDue
    rw [hclosing, hrun, hfifo, hstall]
    rfl
  obtain ⟨hpendT, hpassT, htrackT, -, hengT, hrightsT, hquietT⟩ := truncatePacket_frame s
  obtain ⟨hpendF, hpassF, hscanF, htrackF, hengF, hrightsF, hwinF⟩ := endFilling_frame (truncatePacket s)
  have hends := endFilling_truncated hw
  have hports := hends.1
  have hlink : s.scan.packet = .opened ∨ s.scan.packet = .damaged ∨ s.scan.packet = .header →
      raisedEverywhere .link (ranOut s) := fun h p => by
    change ((endFilling (truncatePacket s)).ports.get p).events &&& _ = _
    rw [hports]
    exact truncatePacket_raises h p
  have hquietR : portsQuiet s (ranOut s) := fun p =>
    (congrArg (fun ps : PerPort PortState => (ps.get p).quiet) hports).trans (hquietT p)
  have hscanR : (ranOut s).scan = { s.scan with packet := .none, heldWord := none, context := none } :=
    hscanF.trans (truncatePacket_scan s)
  have htrackR : (ranOut s).tracker = { s.tracker with heldEvents := [], heldStart := none } :=
    congrArg Tracker.dropHeld (htrackF.trans htrackT)
  have hwindowR : (ranOut s).window =
      { s.window with
        blocks := (ranOut s).window.blocks
        finalBlock := ((ranOut s).window.blocks.map (fun b => b.number)).max? } := by
    have hkept : (endFilling (truncatePacket s)).window =
        { s.window with blocks := (endFilling (truncatePacket s)).window.blocks } := by
      rw [hwinF, truncatePacket_window]
    exact congrArg (fun w : Window =>
      { w with finalBlock := ((ranOut s).window.blocks.map (fun b : Block => b.number)).max? }) hkept
  have hfinal : (ranOut s).window.finalBlock = ((ranOut s).window.blocks.map (fun b => b.number)).max? :=
    (congrArg Window.finalBlock hwindowR :)
  have hcounter : (ranOut s).window.counter = s.window.counter := (congrArg Window.counter hwindowR :)
  have hhold : (ranOut s).window.reviewHold = s.window.reviewHold := (congrArg Window.reviewHold hwindowR :)
  have hmark : (ranOut s).window.releaseMark = s.window.releaseMark := (congrArg Window.releaseMark hwindowR :)
  have hmemory : (ranOut s).window.memory = s.window.memory := (congrArg Window.memory hwindowR :)
  have hstate : (ranOut s).pass.state = .closing := (congrArg PassControl.state (hpassF.trans hpassT)).trans hclosing
  have heng : (ranOut s).engines = s.engines := hengF.trans hengT
  have hrights : (ranOut s).rights = s.rights := hrightsF.trans hrightsT
  have hpend : (ranOut s).pending = s.pending := hpendF.trans hpendT
  change ((ranOut s).ports = _ ∧ ((_ ∧ (ranOut s).window.blocks = _ ∧ (ranOut s).catalogue = _) ∨
    ∃ b, _ ∧ ((_ ∧ (ranOut s).window.blocks = _ ∧ (ranOut s).catalogue = _) ∨
      (_ ∧ (ranOut s).window.blocks = _ ∧ (ranOut s).catalogue = _)))) at hends
  obtain ⟨-, hcases⟩ := hends
  have hnumbers : ((ranOut s).window.blocks.map (fun b => b.number)).Pairwise (· < ·) := by
    have hs := List.pairwise_map.2 hw.rising
    obtain ⟨-, hb, -⟩ | ⟨b, -, ⟨-, hb, -⟩ | ⟨-, hb, -⟩⟩ := hcases <;> rw [hb]
    · exact hs
    · exact hs.sublist (List.filter_sublist.map _)
    · rw [List.map_map]
      refine (List.map_congr_left fun c _ => ?_) ▸ hs
      unfold Block.ended
      rw [Function.comp_apply, apply_ite Block.number, ite_self]
  have hnone : ∀ c ∈ (ranOut s).window.blocks, c.state ≠ .filling := by
    obtain ⟨hnone, hb, -⟩ | ⟨b, hbf, ⟨-, hb, -⟩ | ⟨-, hb, -⟩⟩ := hcases <;> rw [hb]
    · exact fillingBlock_eq_none.1 hnone
    · intro c hc hstate
      obtain ⟨hc, hne⟩ := List.mem_filter.1 hc
      exact of_decide_eq_true hne (congrArg Block.number (hw.only_filling hbf hc (.inl hstate)))
    · rintro c hc
      obtain ⟨c', hc', rfl⟩ := List.mem_map.1 hc
      by_cases hn : c'.number = b.number
      · rw [Block.ended, if_pos hn]
        exact fun h => (nomatch h)
      · rw [Block.ended, if_neg hn]
        exact fun hstate => hn (congrArg Block.number (hw.only_filling hbf hc' (.inl hstate)))
  have hrunR : (ranOut s).pass.runOutEnded = true := rfl
  generalize hr : ranOut s = r at *
  clear hr
  obtain ⟨hp, hsc, htr, he, hri, hcat, hmem⟩ := reportReleased_frame r
  obtain ⟨hrun', hblocks, hcounter', hhold', hmark', hsome, hempty, hlink', hquiet'⟩ :=
    reportReleased_ended hstate hrunR
  generalize reportReleased r = t at *
  have hfillingOf : ∀ b ∈ s.window.blocks, b.state = .filling → fillingBlock s = some b := fun b hb hstate => by
    cases hfb : fillingBlock s with
    | none => exact absurd hstate (fillingBlock_eq_none.1 hfb b hb)
    | some c => rw [hw.only_filling hfb hb (.inl hstate)]
  refine ⟨settle t, hexec, hrun', congrArg ScanInput.packet (hsc.trans hscanR),
    congrArg ScanInput.heldWord (hsc.trans hscanR), congrArg ScanInput.context (hsc.trans hscanR), htr.trans htrackR,
    fun h => raisedEverywhere_settle (hlink' (hlink h)) t.scan, ?_, ?_, ?_, ?_, ?_, hcounter'.trans hcounter,
    hhold'.trans hhold, hmark'.trans hmark, ?_, ?_, hmem.trans hmemory, he.trans heng, hri.trans hrights, hp.trans hpend,
    ?_⟩
  · exact congrArg (fun x : ScanInput => { x with ready := readyOf t }) (hsc.trans hscanR)
  · exact fun b hb => hnone b (hblocks ▸ hb)
  · intro b hb hstate hfill
    obtain ⟨hn, -⟩ | ⟨b', hb', ⟨-, hbl, hc⟩ | ⟨hne, -⟩⟩ := hcases
    · exact absurd hstate (fillingBlock_eq_none.1 hn b hb)
    · obtain rfl := hw.only_filling hb' hb (.inl hstate)
      exact ⟨hblocks.trans hbl, entriesRemoved_of (hcat.trans hc)⟩
    · obtain rfl := hw.only_filling hb' hb (.inl hstate)
      exact absurd hfill hne
  · intro b hb hstate hfill
    obtain ⟨hn, -⟩ | ⟨b', hb', ⟨hz, -⟩ | ⟨-, hbl, hc⟩⟩ := hcases
    · exact absurd hstate (fillingBlock_eq_none.1 hn b hb)
    · obtain rfl := hw.only_filling hb' hb (.inl hstate)
      exact absurd hz hfill
    · obtain rfl := hw.only_filling hb' hb (.inl hstate)
      exact ⟨hcat.trans hc, hblocks.trans hbl⟩
  · intro hn
    obtain ⟨-, hbl, hc⟩ | ⟨b, hb, -⟩ := hcases
    · exact ⟨hblocks.trans hbl, hcat.trans hc⟩
    · obtain ⟨hmem', hstate⟩ := mem_of_fillingBlock hb
      exact absurd hstate (hn b hmem')
  · intro hne
    obtain ⟨hf, hst⟩ := hsome (hblocks ▸ hne)
    refine ⟨?_, ?_⟩
    · rw [settle_window, hf, hfinal, hblocks]
      exact max?_numbers (List.pairwise_map.1 hnumbers)
    · exact hst.trans (by rw [settle_window, hblocks])
  · intro hnil
    obtain ⟨hf, hst, hraised⟩ := hempty (hblocks ▸ hnil)
    exact ⟨hf, hst, raisedEverywhere_settle hraised t.scan⟩
  · intro p
    rw [settle_port]
    exact (hquiet' p).trans (hquietR p)

end Sys2Proof.Machine
end

section
/-! The taking of a block by a lane engine (O43). -/

namespace Sys2Proof.Machine

theorem PerLane.set_set {α : Type} (q : PerLane α) (l : Lane) (v w : α) : (q.set l v).set l w = q.set l w := by
  cases l <;> rfl

theorem setWork_mapLearn (s : State) (l : Lane) (w : Work) (f : Learn → Learn) :
    (s.setWork l w).mapLearn l f =
      s.mapEngine l (fun e => { e with work := w, learn := f e.learn }) := by
  unfold State.mapLearn State.setWork State.mapEngine
  simp only [PerLane.get_set_self, PerLane.set_set]

theorem engineIdle_iff {s : State} {l : Lane} : engineIdle s l = true ↔ workOf s l = .none := by
  unfold engineIdle
  cases workOf s l <;> simp

theorem lowestStale_eq_none {s : State} {l : Lane} :
    lowestStale s l = none ↔ ∀ c ∈ s.window.blocks, c.renderOf l ≠ some .stale := by
  simp [lowestStale]

theorem predecessorReady_iff {s : State} {l : Lane} {k : Nat} :
    predecessorReady s l k = true ↔ ∀ c ∈ s.window.blocks, c.number + 1 = k → c.renderOf l = some .done := by
  simp [predecessorReady, imp_iff_not_or]

theorem successorReady_iff {s : State} {k : Nat} :
    successorReady s k = true ↔
      (∃ c ∈ s.window.blocks, c.number = k + 1 ∧ c.state ≠ .filling) ∨ s.window.finalBlock = some k := by
  simp [successorReady]

/-- The three conditions of a live render, and the lane's freedom to take one (R40). -/
theorem liveChoice_eq_some {s : State} {l : Lane} {b : Block} :
    liveChoice s l = some b ↔
      workOf s l = .none ∧ (∀ c ∈ s.window.blocks, c.renderOf l ≠ some .stale) ∧ lowestPending s l = some b ∧
        b.state = .full ∧ (∀ c ∈ s.window.blocks, c.number + 1 = b.number → c.renderOf l = some .done) ∧
        ((∃ c ∈ s.window.blocks, c.number = b.number + 1 ∧ c.state ≠ .filling) ∨ s.window.finalBlock = some b.number) := by
  rw [← engineIdle_iff, ← lowestStale_eq_none, ← predecessorReady_iff, ← successorReady_iff]
  refine ⟨liveChoice_spec, fun ⟨hidle, hstale, hlowest, hfull, hpred, hsucc⟩ => ?_⟩
  unfold liveChoice
  rw [hidle, hstale, hlowest]
  dsimp only
  rw [hfull, hpred, hsucc]
  rfl

theorem reRenderChoice_eq_some {s : State} {l : Lane} {b : Block} :
    reRenderChoice s l = some b ↔ workOf s l = .none ∧ lowestStale s l = some b := by
  rw [← engineIdle_iff]
  refine ⟨reRenderChoice_spec, fun ⟨hidle, hlowest⟩ => ?_⟩
  unfold reRenderChoice
  rw [if_pos hidle, hlowest]

theorem takeLive_eq (l : Lane) (b : Block) (s : State) :
    takeLive l b s =
      { s with
        window :=
          { s.window with
            blocks := s.window.blocks.map (fun c =>
              if c.number = b.number then
                c.mapRecord l (fun r =>
                  { r with
                    render := .working, dirty := false
                    learnFlag := r.learnFlag || decide ((s.engines.get l).learn.state = .active) })
              else c) }
        engines := s.engines.set l
          { s.engines.get l with
            work := .live b.number
              { settings := (s.engines.get l).settings, stage := .detect, anchors := [], hum := none, hiss := none }
            learn :=
              if (s.engines.get l).learn.state = .active then
                { (s.engines.get l).learn with counted := some b.number }
              else (s.engines.get l).learn } } := by
  unfold takeLive
  dsimp only
  by_cases hactive : (s.engines.get l).learn.state = .active
  · rw [hactive]
    simp only [beq_self_eq_true, if_true, decide_true]
    rw [setWork_mapLearn, ← hactive]
    rfl
  · rw [beq_eq_false_iff_ne.2 hactive, if_neg hactive, decide_eq_false hactive]
    rfl

/-- Settles O43, by the choice that each engine makes. -/
theorem enginesTakeTheBlockTheyMay : Obligations.EnginesTakeTheBlockTheyMay := by
  intro s l
  have hlive : ∀ {o}, liveChoice s l = o →
      exec (.liveRenderTake l) s = completed (match o with | some b => takeLive l b s | none => s) :=
    fun h => by subst h; rfl
  have hre : ∀ {o}, reRenderChoice s l = o →
      exec (.reRenderTake l) s = completed (match o with | some b => takeReRender l b s | none => s) :=
    fun h => by subst h; rfl
  refine ⟨fun b hidle hstale hlowest hfull hpred hsucc => ?_, fun hwaits => ?_, fun b hidle hlowest => ?_, fun hwaits => ?_⟩
  · rw [hlive (liveChoice_eq_some.2 ⟨hidle, hstale, hlowest, hfull, hpred, hsucc⟩)]
    exact congrArg completed (takeLive_eq l b s)
  · refine hlive (Option.eq_none_iff_forall_ne_some.2 fun b hb => ?_)
    obtain ⟨hidle, hstale, hlowest, hfull, hpred, hsucc⟩ := liveChoice_eq_some.1 hb
    obtain hwork | ⟨c, hc, hcstale⟩ | hnone | ⟨d, hd, hcond⟩ := hwaits
    · exact hwork hidle
    · exact hstale c hc hcstale
    · obtain ⟨hmem, hpending⟩ : b ∈ s.window.blocks ∧ b.renderOf l = some .pending :=
        ⟨List.mem_of_find?_eq_some hlowest, beq_iff_eq.1 (List.find?_some hlowest :)⟩
      exact hnone b hmem hpending
    · obtain rfl : b = d := Option.some.inj (hlowest.symm.trans hd)
      obtain h | ⟨c, hc, hnum, hdone⟩ | ⟨hnext, hfinal⟩ := hcond
      · exact h hfull
      · exact hdone (hpred c hc hnum)
      · obtain ⟨c, hc, hnum, hstate⟩ | h := hsucc
        · exact hstate (hnext c hc hnum)
        · exact hfinal h
  · exact hre (reRenderChoice_eq_some.2 ⟨hidle, hlowest⟩) |>.trans (by
      unfold takeReRender LaneRecord.take
      simp only [Bool.or_false]
      rfl)
  · refine hre (Option.eq_none_iff_forall_ne_some.2 fun b hb => ?_)
    obtain ⟨hidle, hlowest⟩ := reRenderChoice_eq_some.1 hb
    obtain hwork | hnone := hwaits
    · exact hwork hidle
    · exact hnone b (List.mem_of_find?_eq_some hlowest) (beq_iff_eq.1 (List.find?_some hlowest :))

end Sys2Proof.Machine
end

section
/-! The completion of a render (O46, O47): peaks, the record and the next snapshot, HELD, the release rule, and the learn. -/

namespace Sys2Proof.Machine

/-! ## Peaks (R52) -/

theorem inputPeakOf_is (s : State) (b : Block) (l : Lane) : InputPeakIs s b l (inputPeakOf s b l) := by
  have hmem : ∀ n, n ∈ (((List.range b.fill).map (fun o => readSample s b .original l o)).filter
        (fun v => v != Config.voidValue)).map (fun v => v.toInt.natAbs) ↔
      ∃ o, o < b.fill ∧ readSample s b .original l o ≠ 0x800000#24 ∧ (readSample s b .original l o).toInt.natAbs = n := by
    intro n
    simp only [List.mem_map, List.mem_filter, List.mem_range, bne_iff_ne, Config.voidValue]
    exact ⟨fun ⟨_, ⟨⟨o, ho, hv⟩, hne⟩, hn⟩ => by subst hv; exact ⟨o, ho, hne, hn⟩,
      fun ⟨o, ho, hne, hn⟩ => ⟨_, ⟨⟨o, ho, rfl⟩, hne⟩, hn⟩⟩
  unfold InputPeakIs
  dsimp only
  split
  · next hnone =>
    intro o ho
    by_contra hne
    exact (List.ne_nil_of_mem ((hmem _).2 ⟨o, ho, hne, rfl⟩)) (List.max?_eq_none_iff.1 hnone)
  · next v hsome =>
    obtain ⟨hv, hmax⟩ := List.max?_eq_some_iff.1 hsome
    exact ⟨(hmem v).1 hv, fun o ho hne => hmax _ ((hmem _).2 ⟨o, ho, hne, rfl⟩)⟩

/-- The running maximum of a list: an upper bound of the start and of every value, and one of them. -/
theorem foldl_max_is (f : Nat → Nat) (os : List Nat) (m : Nat) :
    let v := os.foldl (fun m o => max m (f o)) m
    m ≤ v ∧ (∀ o ∈ os, f o ≤ v) ∧ (v = m ∨ ∃ o ∈ os, f o = v) := by
  induction os generalizing m with
  | nil => exact ⟨Nat.le_refl m, fun o ho => (nomatch ho), .inl rfl⟩
  | cons x os ih =>
    obtain ⟨hle, hall, hone⟩ := ih (max m (f x))
    refine ⟨le_trans (le_max_left ..) hle, List.forall_mem_cons.2 ⟨le_trans (le_max_right ..) hle, hall⟩, ?_⟩
    obtain hv | ⟨o, ho, hv⟩ := hone
    · rw [List.foldl_cons, hv]
      obtain hmax | hmax := max_choice m (f x)
      · exact .inl hmax
      · exact .inr ⟨x, List.mem_cons_self .., hmax.symm⟩
    · exact .inr ⟨o, List.mem_cons_of_mem _ ho, hv⟩

theorem outputPeakOf_is (s : State) (b : Block) (l : Lane) : OutputPeakIs s b l (outputPeakOf s b l) := by
  obtain ⟨-, hall, hone⟩ :=
    foldl_max_is (fun o => (readSample s b .restored l o).toInt.natAbs) (List.range b.fill) 0
  exact ⟨fun o ho => hall o (List.mem_range.2 ho),
    hone.imp_right (fun ⟨o, ho, hv⟩ => ⟨o, List.mem_range.1 ho, hv⟩)⟩

/-! ## The release rule once more -/

theorem holdWaived_congr {s t : State} (hp : t.pass = s.pass) (hw : t.window = s.window) (k : Nat) :
    holdWaived t k = holdWaived s k := by
  unfold holdWaived newestDone
  rw [hp, hw]

theorem releasable_congr {s t : State} (hp : t.pass = s.pass) (hw : t.window = s.window) (bs : List Block) :
    releasable t bs = releasable s bs := by
  induction bs with
  | nil => rfl
  | cons b rest ih => rw [releasable, releasable, ih, holdWaived_congr hp hw]

/-- The rule is a matter of the window, the catalogue and the pass alone. -/
theorem releaseRule_congr {s t : State} (hp : t.pass = s.pass) (hw : t.window = s.window)
    (hc : t.catalogue = s.catalogue) :
    (releaseRule t).pass = (releaseRule s).pass ∧ (releaseRule t).window = (releaseRule s).window ∧
      (releaseRule t).catalogue = (releaseRule s).catalogue ∧
      ∀ d, (∀ p, (t.ports.get p).events = (s.ports.get p).events ||| d) →
        ∀ p, ((releaseRule t).ports.get p).events = ((releaseRule s).ports.get p).events ||| d := by
  have hks : releasable t t.window.blocks = releasable s s.window.blocks := by rw [releasable_congr hp hw, hw]
  obtain ⟨-, -, -, -, -, hwt, hct⟩ := releaseRule_frame t
  obtain ⟨-, -, -, -, -, hws, hcs⟩ := releaseRule_frame s
  have hblocks : (releaseRule t).window.blocks = (releaseRule s).window.blocks := by
    rw [releaseRule_blocks, releaseRule_blocks, hks, hw]
  have hentries : (releaseRule t).catalogue.entries = (releaseRule s).catalogue.entries := by
    have hfixed : Entry.fixedIn t = Entry.fixedIn s := by
      funext ks e
      unfold Entry.fixedIn startsIn blockNumberOf passOffset
      rw [hp]
    rw [releaseRule_entries, releaseRule_entries, hks, hc, hfixed]
  refine ⟨?_, ?_, ?_, fun d hd p => ?_⟩
  · rw [releaseRule_pass, releaseRule_pass, hblocks, hks, hp]
  · rw [hwt, hws, hblocks, hw]
  · rw [hct, hcs, hentries, hc]
  · rw [releaseRule_ports, releaseRule_ports, hks]
    split
    · exact hd p
    · rw [raise_port, raise_port]
      dsimp only
      rw [hd p, BitVec.or_assoc, BitVec.or_assoc, BitVec.or_comm d]

/-- After a release by the rule there is nothing left to release, where no hold is waived that was not. -/
theorem releasable_releasedIn {s u : State} (hwaived : ∀ k, holdWaived u k = true → holdWaived s k = true)
    {bs : List Block} (hrising : bs.Pairwise (fun b c => b.number < c.number)) :
    releasable u (bs.map (Block.releasedIn (releasable s bs))) = [] := by
  induction bs with
  | nil => rfl
  | cons b rest ih =>
    obtain ⟨hlow, hrising⟩ := List.pairwise_cons.1 hrising
    have hstays : b.state ≠ .held → ∀ ks, b.releasedIn ks = b := fun h ks => if_neg (fun hc => h hc.2)
    cases hst : b.state with
    | filling => rw [List.map_cons, hstays (by simp [hst])]; simp [releasable, hst]
    | full => rw [List.map_cons, hstays (by simp [hst])]; simp [releasable, hst]
    | released =>
      rw [List.map_cons, hstays (by simp [hst])]
      simp only [releasable, hst]
      exact ih hrising
    | held =>
      by_cases hb : (b.allDone && holdWaived s b.number) = true
      · have hks : releasable s (b :: rest) = b.number :: releasable s rest := by simp only [releasable, hst, hb, if_true]
        have hhead : (b.releasedIn (b.number :: releasable s rest)).state = .released := by
          rw [Block.releasedIn_state, if_pos ⟨List.mem_cons_self .., hst⟩]
        have hrest : rest.map (Block.releasedIn (b.number :: releasable s rest)) =
            rest.map (Block.releasedIn (releasable s rest)) := by
          refine List.map_congr_left fun c hc => ?_
          have hne : c.number ≠ b.number := (Nat.ne_of_lt (hlow c hc)).symm
          simp only [Block.releasedIn, List.mem_cons, hne, false_or]
        rw [hks, List.map_cons, releasable, hhead, hrest]
        exact ih hrising
      · have hks : releasable s (b :: rest) = [] := by simp only [releasable, hst, hb, if_false, Bool.false_eq_true]
        have hu : ¬(b.allDone && holdWaived u b.number) = true := fun h =>
          hb (by rw [Bool.and_eq_true] at h ⊢; exact ⟨h.1, hwaived _ h.2⟩)
        rw [hks, List.map_id'' Block.releasedIn_nil, releasable, hst]
        exact if_neg hu

/-- The rule evaluated twice in a row is the rule evaluated once. -/
theorem releaseRule_releaseRule {s : State} (hrising : s.window.blocks.Pairwise (fun b c => b.number < c.number)) :
    releaseRule (releaseRule s) = releaseRule s := by
  obtain ⟨-, -, -, -, -, hwindow, -⟩ := releaseRule_frame s
  have hdone : newestDone (releaseRule s) = newestDone s := by
    have hall : ((fun b : Block => b.allDone) ∘ Block.releasedIn (releasable s s.window.blocks)) = fun b => b.allDone := by
      funext b
      obtain ⟨-, -, -, -, -, hlanes⟩ := Block.releasedIn_frame (releasable s s.window.blocks) b
      simp only [Function.comp_apply, Block.allDone, hlanes]
    have hnumber : ((fun b : Block => b.number) ∘ Block.releasedIn (releasable s s.window.blocks)) = fun b => b.number :=
      funext fun b => (Block.releasedIn_frame (releasable s s.window.blocks) b).2.1
    unfold newestDone
    rw [releaseRule_blocks, List.filter_map, hall, List.map_map, hnumber]
  have hwaived : ∀ k, holdWaived (releaseRule s) k = true → holdWaived s k = true := by
    intro k hk
    have hclosing : (releaseRule s).pass.state = .closing → s.pass.state = .closing := by
      rw [releaseRule_pass]
      split
      · exact fun h => (nomatch h)
      · exact id
    unfold holdWaived at hk ⊢
    rw [hdone, hwindow] at hk
    simp only [Bool.or_eq_true, beq_iff_eq] at hk ⊢
    exact hk.imp_right hclosing
  have hnone : releasable (releaseRule s) (releaseRule s).window.blocks = [] := by
    rw [releaseRule_blocks]
    exact releasable_releasedIn hwaived hrising
  rw [releaseRule_eq, if_pos hnone]

/-! ## What a completion writes (R42, R43, R52) -/

/-- The lane record of a block at the completion of its render. -/
def completedRecord (s : State) (b : Block) (l : Lane) (r : LaneRecord) : LaneRecord :=
  { r with
    render := if r.dirty = true then .stale else .done
    dirty := false, inputPeak := inputPeakOf s b l, outputPeak := outputPeakOf s b l }

/-- The snapshot that the states of the sound stages make. -/
def soundSnapshot (h : HumState) (x : HissState) : Snapshot :=
  { phaseA := h.phaseA, phaseB := h.phaseB, slots := h.slots, lp := x.lp, env := x.env }

/-- A block of the window at a completion. -/
def Block.completed (l : Lane) (k : Nat) (record : LaneRecord) (next : Snapshot) (held : Bool) (c : Block) : Block :=
  if c.number = k then { c with lanes := c.lanes.set l (some record), state := if held = true then .held else c.state }
  else if c.number = k + 1 then c.mapRecord l (fun r => { r with snapshot := next })
  else c

theorem completedWindow_blocks (s : State) (l : Lane) (k : Nat) (record : LaneRecord) (next : Snapshot) (held : Bool) :
    (completedWindow s l k record next held).blocks = s.window.blocks.map (Block.completed l k record next held) := rfl

section
variable (l : Lane) (k : Nat) (record : LaneRecord) (next : Snapshot) (held : Bool)

theorem Block.completed_number (c : Block) : (c.completed l k record next held).number = c.number := by
  unfold Block.completed
  split
  · rfl
  · split <;> rfl

theorem Block.completed_lanes {c : Block} (h : c.number = k) : (c.completed l k record next held).lanes.get l = some record := by
  rw [Block.completed, if_pos h]
  exact PerLane.get_set_self ..

theorem Block.completed_renderOf_other {c : Block} {y : Lane} (h : c.number ≠ k ∨ y ≠ l) :
    (c.completed l k record next held).renderOf y = c.renderOf y := by
  unfold Block.completed Block.renderOf
  by_cases hk : c.number = k
  · rw [if_pos hk]
    exact congrArg _ (PerLane.get_set_other _ _ (h.resolve_left (not_not.2 hk)))
  · rw [if_neg hk]
    split
    · by_cases hy : y = l
      · subst hy
        unfold Block.mapRecord
        rw [PerLane.get_set_self, Option.map_map]
        rfl
      · exact congrArg _ (PerLane.get_set_other _ _ hy)
    · rfl

/-- The record of the next block receives the snapshot. -/
theorem Block.completed_next {c : Block} {y : LaneRecord} (hn : c.number = k + 1) (hy : c.lanes.get l = some y) :
    (c.completed l k record next held).lanes.get l = some { y with snapshot := next } := by
  rw [Block.completed, if_neg (by omega), if_pos hn]
  unfold Block.mapRecord
  rw [PerLane.get_set_self, hy]
  rfl

theorem blockNumbered_completed {s t : State} {b : Block} (hb : blockNumbered s k = some b)
    (ht : t.window = completedWindow s l k record next held) :
    blockNumbered t k = some (b.completed l k record next held) := by
  rw [blockNumbered_map (congrArg Window.blocks ht) (Block.completed_number l k record next held), hb]
  rfl

end

section
variable {s : State} {l : Lane} {k : Nat} {f : Flight} {b : Block} {r : LaneRecord} {h : HumState} {x : HissState}
  (hlegal : WindowLegal s) (hhum : f.hum = some h) (hhiss : f.hiss = some x)
  (hb : blockNumbered s k = some b) (hr : b.lanes.get l = some r)
include hlegal hhum hhiss hb hr

theorem writeCompletion_eq :
    writeCompletion l b f s =
      { s with
        window := completedWindow s l k (completedRecord s b l r) (soundSnapshot h x) false
        engines := s.engines.set l { s.engines.get l with work := .none } } := by
  obtain ⟨hmem, rfl⟩ := mem_of_blockNumbered hb
  have hblocks : (s.window.blocks.map (fun c => if c.number = b.number then
          c.mapRecord l (LaneRecord.complete (inputPeakOf s b l) (outputPeakOf s b l)) else c)).map
        (fun c => if c.number = b.number + 1 then c.mapRecord l (fun r => { r with snapshot := soundSnapshot h x }) else c) =
      s.window.blocks.map (Block.completed l b.number (completedRecord s b l r) (soundSnapshot h x) false) := by
    rw [List.map_map]
    refine List.map_congr_left fun c hc => ?_
    rw [Function.comp_apply, Block.completed]
    by_cases hn : c.number = b.number
    · obtain rfl := hlegal.eq_of_number hc hmem hn
      rw [if_pos rfl, if_pos rfl]
      refine (if_neg (Nat.ne_of_lt (Nat.lt_succ_self _))).trans ?_
      unfold Block.mapRecord
      rw [hr]
      rfl
    · rw [if_neg hn, if_neg hn]
  unfold writeCompletion Flight.snapshot
  rw [hhum, hhiss]
  exact congrArg (fun bs : List Block =>
    ({ s with
      window := { s.window with blocks := bs }
      engines := s.engines.set l { s.engines.get l with work := .none } } : State)) hblocks

end

/-! ## The learn at a completion (R129, R130) -/

/-- The engine's learn counts block k, is at its last block and has counted a position. -/
abbrev LaneEngine.Learned (e : LaneEngine) (k : Nat) : Prop :=
  e.learn.counted = some k ∧ e.learn.remaining ≤ 1 ∧ e.learn.count ≠ 0

/-- A lane engine after the learn has met the completion of the live render of block k. -/
def LaneEngine.learnCompleted (e : LaneEngine) (k : Nat) : LaneEngine :=
  { e with
    settings := if e.Learned k then { e.settings with floor := min 8388607 (e.learn.sum / e.learn.count) } else e.settings
    learn :=
      if e.learn.counted ≠ some k then e.learn
      else if e.learn.remaining ≤ 1 then Learn.idle
      else { e.learn with counted := none, remaining := e.learn.remaining - 1 } }

theorem learnCompletion_eq (l : Lane) (k : Nat) (s : State) :
    learnCompletion l k s =
      if (s.engines.get l).Learned k then raise .learned (s.mapEngine l (LaneEngine.learnCompleted · k))
      else s.mapEngine l (LaneEngine.learnCompleted · k) := by
  have hkeep : ∀ e, e = s.engines.get l → e.learnCompleted k = e → s = s.mapEngine l (LaneEngine.learnCompleted · k) := by
    rintro e rfl he
    rw [State.mapEngine, he, PerLane.set_get]
  unfold learnCompletion endLearn
  generalize he : s.engines.get l = e at hkeep ⊢
  obtain ⟨settings, detector, work, state, remaining, sum, count, counted⟩ := e
  by_cases hcounted : counted = some k
  · by_cases hlast : remaining ≤ 1
    · by_cases hc : count = 0 <;>
        simp [State.mapLearn, State.mapEngine, LaneEngine.learnCompleted, LaneEngine.Learned, he, hc, hcounted, hlast,
          PerLane.set_set]
    · simp [State.mapLearn, State.mapEngine, LaneEngine.learnCompleted, LaneEngine.Learned, he, hcounted, hlast]
  · have hsame := hkeep _ rfl (by simp [LaneEngine.learnCompleted, LaneEngine.Learned, hcounted])
    exact (if_neg hcounted).trans (hsame.trans (if_neg (fun h : LaneEngine.Learned _ k => hcounted h.1)).symm)

/-! ## HELD (R44) -/

/-- Every lane but one has had its first render of a block. -/
def OthersRendered (s : State) (l : Lane) (k : Nat) (b : Block) : Prop :=
  ∀ y, y ≠ l → b.renderOf y ≠ some .pending ∧ (b.renderOf y = some .working → ∀ g, workOf s y ≠ .live k g)

theorem firstRendersDone_iff {s : State} {b : Block} :
    firstRendersDone s b = true ↔
      ∀ y, b.renderOf y ≠ some .pending ∧ (b.renderOf y = some .working → ∀ g, workOf s y ≠ .live b.number g) := by
  have hlane : ∀ y, (match b.renderOf y with
      | none => true
      | some .pending => false
      | some .working => !workingLive s y b.number
      | some .done => true
      | some .stale => true) = true ↔
        b.renderOf y ≠ some .pending ∧ (b.renderOf y = some .working → ∀ g, workOf s y ≠ .live b.number g) := by
    intro y
    have hw : workingLive s y b.number = false ↔ ∀ g, workOf s y ≠ .live b.number g := by
      rw [← not_iff_not, Bool.not_eq_false, workingLive_iff]
      unfold workOf
      push Not
      rfl
    cases b.renderOf y with
    | none => simp
    | some x => cases x <;> simp [hw]
  unfold firstRendersDone
  rw [List.all_eq_true]
  exact ⟨fun h y => (hlane y).1 (h y (by cases y <;> decide)), fun h y _ => (hlane y).2 (h y)⟩

/-- The block of a completed render becomes HELD where it was FULL and every other lane has had its first render of it. -/
theorem makeHeld_eq {s u : State} {l : Lane} {k : Nat} {b : Block} {record : LaneRecord} {next : Snapshot} {held : Bool}
    (hlegal : WindowLegal s) (hb : blockNumbered s k = some b) (hw : u.window = completedWindow s l k record next false)
    (hwork : ∀ y, y ≠ l → workOf u y = workOf s y) (hrender : record.render = .done ∨ record.render = .stale)
    (hheld : held = true ↔ b.state = .full ∧ OthersRendered s l k b) :
    makeHeld k u =
      if held = true then releaseRule (raise .held { u with window := completedWindow s l k record next true }) else u := by
  obtain ⟨hmem, rfl⟩ := mem_of_blockNumbered hb
  have hself : b.completed l b.number record next false = { b with lanes := b.lanes.set l (some record) } := if_pos rfl
  have hlane : (b.completed l b.number record next false).renderOf l = some record.render := by
    unfold Block.renderOf
    rw [Block.completed_lanes l b.number record next false rfl]
    rfl
  have hcond : (b.completed l b.number record next false).state = .full ∧
      firstRendersDone u (b.completed l b.number record next false) = true ↔ held = true := by
    rw [hheld, firstRendersDone_iff, Block.completed_number]
    refine and_congr (by rw [hself]) ⟨fun h y hy => ?_, fun h y => ?_⟩
    · have hy' := h y
      rwa [Block.completed_renderOf_other _ _ _ _ _ (.inr hy), hwork y hy] at hy'
    · by_cases hy : y = l
      · subst hy
        rw [hlane]
        obtain hd | hd := hrender <;> rw [hd] <;> simp
      · rw [Block.completed_renderOf_other _ _ _ _ _ (.inr hy), hwork y hy]
        exact h y hy
  have hblocks : b.state = .full → (completedWindow s l b.number record next false).blocks.map (fun c =>
        if c.number = b.number then (if c.state = .full then { c with state := .held } else c) else c) =
      (completedWindow s l b.number record next true).blocks := by
    intro hfull
    rw [completedWindow_blocks, completedWindow_blocks, List.map_map]
    refine List.map_congr_left fun c hc => ?_
    rw [Function.comp_apply, Block.completed_number]
    by_cases hn : c.number = b.number
    · obtain rfl := hlegal.eq_of_number hc hmem hn
      rw [if_pos rfl, hself, Block.completed, if_pos rfl]
      exact if_pos hfull
    · rw [if_neg hn, Block.completed, Block.completed, if_neg hn, if_neg hn]
  unfold makeHeld
  rw [blockNumbered_completed l b.number record next false hb hw]
  dsimp only
  simp only [hcond]
  split
  · next hh =>
    refine congrArg (fun w => releaseRule (raise .held { u with window := w })) ?_
    rw [hw]
    exact congrArg (fun bs : List Block => { s.window with blocks := bs }) (hblocks (hheld.1 hh).1)
  · rfl

/-! ## The release rule at a completion -/

/-- The release rule, evaluated or not. -/
def releaseWhere (evaluated : Prop) [Decidable evaluated] (s : State) : State := if evaluated then releaseRule s else s

section
variable (evaluated : Prop) [Decidable evaluated]

/-- A block of the window after the rule: the same but for HELD blocks then RELEASED. -/
theorem releaseWhere_blocks (s : State) :
    ∃ ks, (releaseWhere evaluated s).window.blocks = s.window.blocks.map (Block.releasedIn ks) := by
  unfold releaseWhere
  split
  · exact ⟨_, releaseRule_blocks s⟩
  · exact ⟨[], (List.map_id'' Block.releasedIn_nil _).symm⟩

theorem releaseWhere_frame (s : State) :
    (releaseWhere evaluated s).pending = s.pending ∧ (releaseWhere evaluated s).scan = s.scan ∧
      (releaseWhere evaluated s).tracker = s.tracker ∧ (releaseWhere evaluated s).engines = s.engines ∧
      (releaseWhere evaluated s).rights = s.rights ∧
      (releaseWhere evaluated s).window = { s.window with blocks := (releaseWhere evaluated s).window.blocks } ∧
      (releaseWhere evaluated s).catalogue =
        { s.catalogue with entries := (releaseWhere evaluated s).catalogue.entries } ∧
      portsQuiet s (releaseWhere evaluated s) := by
  unfold releaseWhere
  split
  · obtain ⟨h1, h2, h3, h4, h5, h6, h7⟩ := releaseRule_frame s
    exact ⟨h1, h2, h3, h4, h5, h6, h7, releaseRule_quiet s⟩
  · exact ⟨rfl, rfl, rfl, rfl, rfl, rfl, rfl, fun _ => rfl⟩

theorem releaseWhere_entries (s : State) :
    (releaseWhere evaluated s).catalogue.entries.map (fun e => { e with fixed := true }) =
      s.catalogue.entries.map (fun e => { e with fixed := true }) := by
  unfold releaseWhere
  split
  · rw [releaseRule_entries, List.map_map]
    rfl
  · rfl

theorem releaseWhere_congr {s t : State} (hp : t.pass = s.pass) (hw : t.window = s.window)
    (hc : t.catalogue = s.catalogue) :
    (releaseWhere evaluated t).pass = (releaseWhere evaluated s).pass ∧
      (releaseWhere evaluated t).window = (releaseWhere evaluated s).window ∧
      (releaseWhere evaluated t).catalogue = (releaseWhere evaluated s).catalogue ∧
      ∀ d, (∀ p, (t.ports.get p).events = (s.ports.get p).events ||| d) →
        ∀ p, ((releaseWhere evaluated t).ports.get p).events = ((releaseWhere evaluated s).ports.get p).events ||| d := by
  unfold releaseWhere
  split
  · exact releaseRule_congr hp hw hc
  · exact ⟨hp, hw, hc, fun _ h => h⟩

end

/-- The record of a completed render is DONE where it was not dirty, also after the release rule. -/
theorem recordDone_completed {s v u : State} {l : Lane} {k : Nat} {b : Block} {r : LaneRecord} {next : Snapshot} {held : Bool}
    {ks : List Nat} (hb : blockNumbered s k = some b)
    (hv : v.window = completedWindow s l k (completedRecord s b l r) next held)
    (hu : u.window.blocks = v.window.blocks.map (Block.releasedIn ks)) :
    recordDone u l k = true ↔ r.dirty = false := by
  have hnumber := fun c : Block => (Block.releasedIn_frame ks c).2.1
  obtain ⟨-, -, -, -, -, hlanes⟩ := Block.releasedIn_frame ks (b.completed l k (completedRecord s b l r) next held)
  unfold recordDone Block.renderOf
  rw [blockNumbered_map hu hnumber, blockNumbered_completed l k _ next held hb hv, Option.map_some, Option.any_some, hlanes,
    Block.completed_lanes l k _ next held (mem_of_blockNumbered hb).2, Option.map_some]
  unfold completedRecord
  cases r.dirty <;> simp

/-- The state that a completion makes from the one that it has written: the statement's clauses on the window, the catalogue
and what stays. -/
theorem completion_spec {s v : State} {l : Lane} {k : Nat} {b : Block} {record : LaneRecord} {next : Snapshot} {held : Bool}
    (evaluated : Prop) [Decidable evaluated] (hb : blockNumbered s k = some b)
    (hw : v.window = completedWindow s l k record next held) (hp : v.pass = s.pass) (hc : v.catalogue = s.catalogue) :
    let t := releaseWhere evaluated v
    let after := releaseWhere evaluated { s with window := completedWindow s l k record next held }
    t.window = after.window ∧ t.catalogue = after.catalogue ∧ t.pass = after.pass ∧
      (∃ c ∈ t.window.blocks, c.number = k ∧ c.lanes.get l = some record ∧
        (held = true → c.state = .held ∨ c.state = .released) ∧ (b.state = .full → held = false → c.state = .full)) ∧
      (∀ c ∈ s.window.blocks, ∀ y, c.number = k + 1 → c.lanes.get l = some y →
        ∃ d ∈ t.window.blocks, d.number = k + 1 ∧ d.lanes.get l = some { y with snapshot := next }) ∧
      t.window.memory = s.window.memory ∧ t.window.counter = s.window.counter ∧
      t.catalogue.cursors = s.catalogue.cursors ∧ t.catalogue.counter = s.catalogue.counter ∧
      t.catalogue.entries.map (fun e => { e with fixed := true }) =
        s.catalogue.entries.map (fun e => { e with fixed := true }) ∧
      ∀ d, (∀ p, (v.ports.get p).events = (s.ports.get p).events ||| d) →
        ∀ p, (t.ports.get p).events = (after.ports.get p).events ||| d := by
  intro t after
  obtain ⟨hpass, hwindow, hcat, hevents⟩ :=
    releaseWhere_congr (s := { s with window := completedWindow s l k record next held }) evaluated hp hw hc
  obtain ⟨-, -, -, -, -, htw, htc, -⟩ := releaseWhere_frame evaluated v
  obtain ⟨ks, hblocks⟩ := releaseWhere_blocks evaluated v
  obtain ⟨hmem, hnum⟩ := mem_of_blockNumbered hb
  have hblocks' : t.window.blocks = (s.window.blocks.map (Block.completed l k record next held)).map (Block.releasedIn ks) := by
    rw [hblocks, hw, completedWindow_blocks]
  have hmoved : ∀ {c}, c ∈ s.window.blocks → (c.completed l k record next held).releasedIn ks ∈ t.window.blocks := fun hc => by
    rw [hblocks']
    exact List.mem_map_of_mem (List.mem_map_of_mem hc)
  refine ⟨hwindow, hcat, hpass, ⟨_, hmoved hmem, ?_⟩, fun c hc y hn hy => ⟨_, hmoved hc, ?_⟩, ?_, ?_, ?_, ?_, ?_, hevents⟩
  · obtain ⟨-, hnumber, -, -, -, hlanes⟩ := Block.releasedIn_frame ks (b.completed l k record next held)
    have hstate : (b.completed l k record next held).state = if held = true then .held else b.state := by
      rw [Block.completed, if_pos hnum]
    rw [hnumber, hlanes, Block.completed_number, Block.releasedIn_state, hstate]
    refine ⟨hnum, Block.completed_lanes l k record next held hnum, fun hh => ?_, fun hf hh => ?_⟩
    · rw [if_pos hh]
      split
      · exact .inr rfl
      · exact .inl rfl
    · simp [hh, hf]
  · obtain ⟨-, hnumber, -, -, -, hlanes⟩ := Block.releasedIn_frame ks (c.completed l k record next held)
    rw [hnumber, hlanes, Block.completed_number]
    exact ⟨hn, Block.completed_next l k record next held hn hy⟩
  · exact (congrArg Window.memory htw).trans (congrArg Window.memory hw :)
  · exact (congrArg Window.counter htw).trans (congrArg Window.counter hw :)
  · exact (congrArg Catalogue.cursors htc).trans (congrArg Catalogue.cursors hc :)
  · exact (congrArg Catalogue.counter htc).trans (congrArg Catalogue.counter hc :)
  · rw [releaseWhere_entries, hc]

/-- Whether a lane has a STALE record after the completion that leaves its record DONE. -/
theorem lowestStale_releaseWhere {s v : State} {l : Lane} {k : Nat} {b : Block} {r : LaneRecord} {next : Snapshot}
    {held : Bool} (evaluated : Prop) [Decidable evaluated]
    (hw : v.window = completedWindow s l k (completedRecord s b l r) next held) (hclean : r.dirty = false) :
    (lowestStale (releaseWhere evaluated v) l).isNone = true ↔
      ∀ c ∈ s.window.blocks, c.number ≠ k → c.renderOf l ≠ some .stale := by
  obtain ⟨ks, hblocks⟩ := releaseWhere_blocks evaluated v
  have hlanes : ∀ c : Block, (c.releasedIn ks).renderOf l = c.renderOf l := fun c => by
    obtain ⟨-, -, -, -, -, h⟩ := Block.releasedIn_frame ks c
    unfold Block.renderOf
    rw [h]
  rw [Option.isNone_iff_eq_none, lowestStale_eq_none, hblocks, hw, completedWindow_blocks, List.forall_mem_map,
    List.forall_mem_map]
  refine forall₂_congr fun c _ => ?_
  rw [hlanes]
  by_cases hn : c.number = k
  · have hrender : (c.completed l k (completedRecord s b l r) next held).renderOf l = some .done := by
      unfold Block.renderOf
      rw [Block.completed_lanes l k _ next held hn]
      simp [completedRecord, hclean]
    rw [hrender]
    simp [hn]
  · rw [Block.completed_renderOf_other l k _ next held (.inl hn)]
    simp [hn]

/-! ## The completion of a re-render (R142, R143) -/

/-- Settles O47. -/
theorem reRenderCompletionWritesItsResults : Obligations.ReRenderCompletionWritesItsResults := by
  intro s l k f b r h x hlegal hwork hstage hhum hhiss hb hr record snapshot written after
  have hwritten := writeCompletion_eq hlegal hhum hhiss hb hr
  set v := writeCompletion l b f s with hv
  have hw : v.window = completedWindow s l k (completedRecord s b l r) (soundSnapshot h x) false := congrArg State.window hwritten
  have hdone : recordDone v l k = true ↔ r.dirty = false :=
    recordDone_completed hb hw (List.map_id'' Block.releasedIn_nil _).symm
  have hfinish : finishReRender l s =
      raiseRendered l (recordDone v l k) (releaseWhere (r.dirty = false) v) := by
    unfold finishReRender
    rw [hwork]
    dsimp only
    rw [hb]
    dsimp only
    rw [if_pos hstage]
    unfold releaseWhere
    simp only [← hdone]
    rfl
  have hexec : exec (.reRenderComplete l .rest) s =
      completed (raiseRendered l (recordDone v l k) (releaseWhere (r.dirty = false) v)) := by
    rw [← hfinish]
    have hstop : advance l workFuel s = s := advance_finished (by unfold stageOf; rw [hwork, ← hstage]) _
    change completed (match workOf s l, Progress.rest with
      | .reRender _ _, .part n => advance l n s
      | .reRender _ _, .rest => finishReRender l (advance l workFuel s)
      | .none, _ => s
      | .live _ _, _ => s) = _
    rw [hwork, hstop]
  obtain ⟨hwindow, hcat, hpass, hrecord, hnext, hmemory, hcounter, hcursors, hcatcounter, hfixed, hevents⟩ :=
    completion_spec (s := s) (v := v) (r.dirty = false) hb hw (congrArg State.pass hwritten :)
      (congrArg State.catalogue hwritten :)
  obtain ⟨hpend, hscan, htrack, heng, hrights, -, -, hquiet⟩ := releaseWhere_frame (r.dirty = false) v
  have hstale := lowestStale_releaseWhere (r := r) (r.dirty = false) hw
  have hports := hevents 0#11 (fun p => by
    rw [show v.ports = s.ports from (congrArg State.ports hwritten :), BitVec.or_zero])
  have hquiet' : portsQuiet s (releaseWhere (r.dirty = false) v) := fun p =>
    (hquiet p).trans (congrArg (fun q : PerPort PortState => (q.get p).quiet) (congrArg State.ports hwritten :))
  have hengines : (releaseWhere (r.dirty = false) v).engines = s.engines.set l { s.engines.get l with work := .none } :=
    heng.trans (congrArg State.engines hwritten)
  have hpend' := hpend.trans (congrArg State.pending hwritten)
  have hscan' := hscan.trans (congrArg State.scan hwritten)
  have htrack' := htrack.trans (congrArg State.tracker hwritten)
  have hrights' := hrights.trans (congrArg State.rights hwritten)
  have hrendered : raiseRendered l (recordDone v l k) (releaseWhere (r.dirty = false) v) =
      { releaseWhere (r.dirty = false) v with
        ports :=
          if r.dirty = false ∧ ∀ c ∈ s.window.blocks, c.number ≠ k → c.renderOf l ≠ some .stale then
            (raise .rendered (releaseWhere (r.dirty = false) v)).ports
          else (releaseWhere (r.dirty = false) v).ports } := by
    have hcond : (recordDone v l k && (lowestStale (releaseWhere (r.dirty = false) v) l).isNone) = true ↔
        r.dirty = false ∧ ∀ c ∈ s.window.blocks, c.number ≠ k → c.renderOf l ≠ some .stale := by
      rw [Bool.and_eq_true, hdone]
      exact and_congr_right hstale
    unfold raiseRendered
    simp only [hcond]
    split <;> rfl
  rw [hrendered] at hexec
  generalize releaseWhere (r.dirty = false) v = u at *
  generalize hports' : (if r.dirty = false ∧ ∀ c ∈ s.window.blocks, c.number ≠ k → c.renderOf l ≠ some .stale then
      (raise .rendered u).ports else u.ports) = ports at hexec
  have hquiet'' : ∀ p, (ports.get p).quiet = (u.ports.get p).quiet := by
    intro p
    rw [← hports']
    split
    · exact raise_quiet .rendered u p
    · rfl
  refine ⟨inputPeakOf_is s b l, outputPeakOf_is s b l, _, hexec, ?_, hwindow, hcat, hpass, ?_, hnext, hmemory, hcounter,
    htrack', hrights', hpend', ?_, hcursors, hcatcounter, hfixed, fun y hy => ?_, fun p => ?_, ?_, ?_⟩
  · exact congrArg LaneEngine.work ((congrArg (PerLane.get · l) hengines).trans (PerLane.get_set_self ..))
  · obtain ⟨c, hc, hn, hl, -⟩ := hrecord
    exact ⟨c, hc, hn, hl⟩
  · exact (congrArg (fun x : ScanInput => { x with ready := readyOf u }) hscan' :)
  · exact (congrArg (PerLane.get · y) hengines).trans (PerLane.get_set_other _ _ hy)
  · rw [settle_port]
    exact (hquiet'' p).trans (hquiet' p)
  · exact (congrArg (PerLane.get · l) hengines).trans (PerLane.get_set_self ..)
  · refine ⟨fun hyes => ?_, fun hyes p => ?_, fun hno p => ?_⟩
    · rw [if_pos hyes] at hports'
      exact raisedEverywhere_settle (t := { u with ports := ports }) (hports' ▸ raise_sets .rendered u) u.scan
    · rw [settle_port, ← hports', if_pos hyes]
      dsimp only
      rw [raise_port]
      exact congrArg (· ||| Event.rendered.flag) ((hports p).trans BitVec.or_zero)
    · rw [settle_port, ← hports', if_neg hno]
      exact (hports p).trans BitVec.or_zero

/-! ## The completion of a live render -/

section
variable {s : State} {l : Lane} {k : Nat} {f : Flight} {b : Block} {r : LaneRecord} {h : HumState} {x : HissState}
  {held : Bool} (hlegal : WindowLegal s) (hstage : f.stage = .finished) (hhum : f.hum = some h) (hhiss : f.hiss = some x)
  (hwork : workOf s l = .live k f) (hb : blockNumbered s k = some b) (hr : b.lanes.get l = some r)
  (hheld : held = true ↔ b.state = .full ∧ OthersRendered s l k b)
include hlegal hstage hhum hhiss hwork hb hr hheld

/-- The completion of a live render: what is written, LEARNED and HELD, and then the release rule, evaluated once (R42, R44,
R46, R129). -/
theorem finishLive_eq :
    ∃ ports : PerPort PortState,
      finishLive l s =
          releaseWhere (held = true ∨ r.dirty = false)
            { s with
              window := completedWindow s l k (completedRecord s b l r) (soundSnapshot h x) held
              engines := s.engines.set l ({ s.engines.get l with work := .none }.learnCompleted k)
              ports := ports } ∧
        (∀ p, (ports.get p).events =
          (s.ports.get p).events ||| ((if held = true then Event.held.flag else 0#11) |||
            (if (s.engines.get l).Learned k then Event.learned.flag else 0#11))) ∧
        ∀ p, (ports.get p).quiet = (s.ports.get p).quiet := by
  have hwritten := writeCompletion_eq hlegal hhum hhiss hb hr
  have hlearn : ∃ ports : PerPort PortState,
      learnCompletion l k (writeCompletion l b f s) =
        { s with
          window := completedWindow s l k (completedRecord s b l r) (soundSnapshot h x) false
          engines := s.engines.set l ({ s.engines.get l with work := .none }.learnCompleted k)
          ports := ports } ∧
        (∀ p, (ports.get p).events = (s.ports.get p).events |||
          (if (s.engines.get l).Learned k then Event.learned.flag else 0#11)) ∧
        ∀ p, (ports.get p).quiet = (s.ports.get p).quiet := by
    have hlearned : ((writeCompletion l b f s).engines.get l).Learned k ↔ (s.engines.get l).Learned k := by
      rw [hwritten]
      dsimp only
      rw [PerLane.get_set_self]
    have hengines : (writeCompletion l b f s).mapEngine l (LaneEngine.learnCompleted · k) =
        { s with
          window := completedWindow s l k (completedRecord s b l r) (soundSnapshot h x) false
          engines := s.engines.set l ({ s.engines.get l with work := .none }.learnCompleted k) } := by
      rw [hwritten]
      unfold State.mapEngine
      dsimp only
      rw [PerLane.get_set_self, PerLane.set_set]
    rw [learnCompletion_eq, hengines]
    simp only [hlearned]
    split
    · exact ⟨(raise .learned s).ports, rfl, fun p => by rw [raise_port], raise_quiet .learned s⟩
    · exact ⟨s.ports, rfl, fun p => BitVec.or_zero.symm, fun p => rfl⟩
  obtain ⟨ports, hlearn, hevents, hquiet⟩ := hlearn
  have hworkOther : ∀ y, y ≠ l → workOf (learnCompletion l k (writeCompletion l b f s)) y = workOf s y := fun y hy => by
    rw [hlearn]
    exact congrArg LaneEngine.work (PerLane.get_set_other _ _ hy)
  have hrecord : (completedRecord s b l r).render = .done ∨ (completedRecord s b l r).render = .stale := by
    unfold completedRecord
    cases r.dirty <;> simp
  have hmake := makeHeld_eq hlegal hb (congrArg State.window hlearn) hworkOther hrecord hheld
  let raised : PerPort PortState := if held = true then (raise .held { s with ports := ports }).ports else ports
  let v : State :=
    { s with
      window := completedWindow s l k (completedRecord s b l r) (soundSnapshot h x) held
      engines := s.engines.set l ({ s.engines.get l with work := .none }.learnCompleted k)
      ports := raised }
  have hv : makeHeld k (learnCompletion l k (writeCompletion l b f s)) = releaseWhere (held = true) v := by
    rw [hmake, hlearn]
    cases held <;> rfl
  obtain ⟨ks, hks⟩ := releaseWhere_blocks (held = true) v
  have hdone : recordDone (releaseWhere (held = true) v) l k = true ↔ r.dirty = false :=
    recordDone_completed hb (v := v) rfl hks
  have hrising : v.window.blocks.Pairwise (fun b c => b.number < c.number) := by
    rw [show v.window.blocks = _ from completedWindow_blocks s l k _ _ held, List.pairwise_map]
    refine hlegal.rising.imp fun hlt => ?_
    rwa [Block.completed_number, Block.completed_number]
  have hfinish : finishLive l s = releaseWhere (held = true ∨ r.dirty = false) v := by
    unfold finishLive
    rw [hwork]
    dsimp only
    rw [hb]
    dsimp only
    rw [if_pos hstage, hv]
    simp only [hdone]
    unfold releaseWhere
    by_cases hclean : r.dirty = false <;> by_cases hh : held = true <;>
      simp only [hclean, hh, if_true, if_false, or_true, true_or, or_self, releaseRule_releaseRule hrising,
        Bool.true_eq_false, Bool.false_eq_true]
  refine ⟨raised, hfinish, fun p => ?_, fun p => ?_⟩
  · by_cases hh : held = true
    · simp only [raised, if_pos hh]
      rw [raise_port]
      change (ports.get p).events ||| _ = _
      rw [hevents p, BitVec.or_assoc, BitVec.or_comm (ite ..)]
    · simp only [raised, if_neg hh]
      rw [hevents p, BitVec.zero_or]
  · by_cases hh : held = true
    · simp only [raised, if_pos hh]
      exact (raise_quiet .held { s with ports := ports } p).trans (hquiet p)
    · simp only [raised, if_neg hh]
      exact hquiet p

end

/-- Settles O46. -/
theorem liveCompletionWritesItsResults : Obligations.LiveCompletionWritesItsResults := by
  intro s l k f b r h x held hlegal hwork hstage hhum hhiss hb hr hheld record snapshot written after
  obtain ⟨ports, hfinish, hevents, hquiet⟩ := finishLive_eq hlegal hstage hhum hhiss hwork hb hr hheld
  have hexec : exec (.liveRenderComplete l .rest) s = completed (finishLive l s) := by
    have hstop : advance l workFuel s = s := advance_finished (by unfold stageOf; rw [hwork, ← hstage]) _
    change completed (match workOf s l, Progress.rest with
      | .live _ _, .part n => advance l n s
      | .live _ _, .rest => finishLive l (advance l workFuel s)
      | .none, _ => s
      | .reRender _ _, _ => s) = _
    rw [hwork, hstop]
  rw [hfinish] at hexec
  let v : State :=
    { s with
      window := completedWindow s l k (completedRecord s b l r) (soundSnapshot h x) held
      engines := s.engines.set l ({ s.engines.get l with work := .none }.learnCompleted k)
      ports := ports }
  obtain ⟨hwindow, hcat, hpass, hrecord, hnext, hmemory, hcounter, hcursors, hcatcounter, hfixed, hevents'⟩ :=
    completion_spec (s := s) (v := v) (held = true ∨ r.dirty = false) hb rfl rfl rfl
  obtain ⟨hpend, hscan, htrack, heng, hrights, -, -, hquiet'⟩ := releaseWhere_frame (held = true ∨ r.dirty = false) v
  have hports := hevents' _ hevents
  change exec (.liveRenderComplete l .rest) s = completed (releaseWhere (held = true ∨ r.dirty = false) v) at hexec
  have hself : (releaseWhere (held = true ∨ r.dirty = false) v).engines.get l =
      { s.engines.get l with work := .none }.learnCompleted k :=
    (congrArg (PerLane.get · l) heng).trans (PerLane.get_set_self ..)
  generalize hu : releaseWhere (held = true ∨ r.dirty = false) v = u at *
  have hraised : ∀ e : Event, (∀ p, ∃ d, ((u.ports.get p).events) = d ||| e.flag) → raisedEverywhere e (settle u) := by
    intro e he p
    obtain ⟨d, hd⟩ := he p
    rw [settle_port]
    dsimp only
    rw [hd]
    ext i
    simp
    intro h
    exact .inr h
  have hevent : ∀ p, ((settle u).ports.get p).events =
      (after.ports.get p).events ||| (if held = true then Event.held.flag else 0#11) |||
        (if (s.engines.get l).Learned k then Event.learned.flag else 0#11) := fun p => by
    rw [settle_port, BitVec.or_assoc]
    exact hports p
  refine ⟨inputPeakOf_is s b l, outputPeakOf_is s b l, _, hexec, ?_, hwindow, hcat, hpass, ?_, hnext, hmemory, hcounter,
    htrack, hrights, hpend, ?_, hcursors, hcatcounter, hfixed, fun y hy => ?_, fun p => ?_, hevent, fun hcounted => ?_,
    fun hcounted hlast => ?_, fun hcounted hlast hcount => ?_, fun hcounted hlast hcount => ⟨?_, ?_⟩⟩
  · exact congrArg LaneEngine.work hself
  · obtain ⟨c, hc, hn, hl, hstate, hfull⟩ := hrecord
    refine ⟨c, hc, hn, hl, fun hh => ⟨hstate hh, hraised .held fun p => ?_⟩, hfull⟩
    refine ⟨(after.ports.get p).events ||| (if (s.engines.get l).Learned k then Event.learned.flag else 0#11), ?_⟩
    rw [BitVec.or_assoc, BitVec.or_comm _ Event.held.flag]
    exact (hports p).trans (by rw [if_pos hh]; rfl)
  · exact (congrArg (fun x : ScanInput => { x with ready := readyOf u }) hscan :)
  · exact (congrArg (PerLane.get · y) heng).trans (PerLane.get_set_other _ _ hy)
  · rw [settle_port]
    exact (hquiet' p).trans (hquiet p)
  · refine hself.trans ?_
    simp [LaneEngine.learnCompleted, LaneEngine.Learned, hcounted]
  · refine hself.trans ?_
    simp [LaneEngine.learnCompleted, LaneEngine.Learned, hcounted, Nat.not_le.2 hlast]
  · refine hself.trans ?_
    simp [LaneEngine.learnCompleted, LaneEngine.Learned, hcounted, hlast, hcount, Learn.idle]
  · refine hraised .learned fun p => ⟨(after.ports.get p).events ||| (if held = true then Event.held.flag else 0#11), ?_⟩
    rw [BitVec.or_assoc]
    have hlearned : (s.engines.get l).Learned k := ⟨hcounted, hlast, hcount⟩
    exact (hports p).trans (by rw [if_pos hlearned]; rfl)
  · refine hself.trans ?_
    simp [LaneEngine.learnCompleted, LaneEngine.Learned, hcounted, hlast, hcount, Learn.idle]

end Sys2Proof.Machine
end

section
/-! Detection (O44, O45): one examination of a completion command, and what it closes and presents. -/

namespace Sys2Proof.Machine

/-! ## A span presented (R60, R64, R89) -/

theorem insertCarried_perm (s : State) (c : CarriedSpan) (cs : List CarriedSpan) : (insertCarried s c cs).Perm (c :: cs) := by
  induction cs with
  | nil => exact .refl _
  | cons a rest ih =>
    rw [insertCarried]
    split
    · exact .refl _
    · exact (ih.cons a).trans (.swap c a rest)

theorem insertCarried_congr {s t : State} (h : t.pass = s.pass) (c : CarriedSpan) (cs : List CarriedSpan) :
    insertCarried t c cs = insertCarried s c cs := by
  induction cs with
  | nil => rfl
  | cons a rest ih =>
    rw [insertCarried, insertCarried, ih]
    unfold passOffset
    rw [h]

/-- The carry stays in the order of the starts. -/
theorem insertCarried_sorted (s : State) (c : CarriedSpan) {cs : List CarriedSpan}
    (h : cs.Pairwise (fun a b => passOffset s a.start ≤ passOffset s b.start)) :
    (insertCarried s c cs).Pairwise (fun a b => passOffset s a.start ≤ passOffset s b.start) := by
  induction cs with
  | nil => exact List.pairwise_singleton ..
  | cons a rest ih =>
    obtain ⟨hfirst, hrest⟩ := List.pairwise_cons.1 h
    rw [insertCarried]
    split
    · next hlt =>
      exact List.pairwise_cons.2 ⟨List.forall_mem_cons.2 ⟨hlt.le, fun b hb => hlt.le.trans (hfirst b hb)⟩, h⟩
    · next hle =>
      refine List.pairwise_cons.2 ⟨fun b hb => ?_, ih hrest⟩
      obtain rfl | hb := List.mem_cons.1 ((insertCarried_perm s c rest).mem_iff.1 hb)
      · exact Int.not_lt.1 hle
      · exact hfirst b hb

/-- A span presented by a detector that has come to IDLE: the statement's terms of it, and what stays. -/
theorem presentSpan_presented (s : State) (l : Lane) (kind : EntryKind) (start : Position) (span : Nat) (peak : Option Nat)
    (d : Decision) (next : Position) (envelope : Nat) :
    let t := settle (presentSpan l kind start span peak d (s.detecting l .idle next envelope))
    SpanPresented s t l
        { number := 0, kind := kind, lane := some l, start := start, span := some span, peak := peak
          decision := some d, decidedBy := .default, reported := none, fixed := false }
        ⟨kind, start, span, d⟩ next envelope ∧
      t.tracker = s.tracker ∧ t.pass = s.pass ∧ t.rights = s.rights ∧ t.pending = s.pending ∧
      t.scan = { s.scan with ready := readyOf s } ∧ portsQuiet s t := by
  intro t
  have hfull : catalogueFull (s.detecting l .idle next envelope) = decide (2048 ≤ s.catalogue.entries.length) := rfl
  by_cases hroom : s.catalogue.entries.length < 2048
  · have ht : t = settle (listEntry
        { number := 0, kind := kind, lane := some l, start := start, span := some span, peak := peak
          decision := some d, decidedBy := .default, reported := none, fixed := false }
        (s.detecting l .idle next envelope)) := by
      simp only [t, presentSpan]
      rw [if_neg (by rw [hfull, decide_eq_true_iff]; exact Nat.not_le.2 hroom)]
    generalize ({ number := 0, kind := kind, lane := some l, start := start, span := some span, peak := peak,
                  decision := some d, decidedBy := .default, reported := none, fixed := false } : Entry) = e at ht ⊢
    obtain ⟨hpend, hpass, hscan, htrack, hwindow, heng, hrights⟩ := listEntry_frame e (s.detecting l .idle next envelope)
    have hports : ∀ p, ((listEntry e (s.detecting l .idle next envelope)).ports.get p).quiet = (s.ports.get p).quiet := by
      intro p
      rw [listEntry_ports]
      split
      · exact raise_quiet .cathigh (s.detecting l .idle next envelope) p
      · rfl
    have hadded : EntryAdded (s.detecting l .idle next envelope) t e :=
      entryAdded_of_listed e (congrArg State.catalogue ht :) (fun p => by rw [ht, settle_port])
    have hready : readyOf (listEntry e (s.detecting l .idle next envelope)) = readyOf s := by
      unfold readyOf
      rw [hpass, hscan]
      rfl
    rw [ht] at hadded ⊢
    refine ⟨⟨fun _ => ⟨hadded, hwindow, heng⟩, fun h => absurd hroom (Nat.not_lt.2 h)⟩, htrack, hpass, hrights, hpend, ?_,
      fun p => ?_⟩
    · rw [settle_scan, hready, hscan]
      rfl
    · rw [settle_port]
      exact hports p
  · have ht : t = settle (raise .unlisted
        { s with
          engines := s.engines.set l
            { s.engines.get l with
              detector :=
                { state := .idle, next := next, envelope := envelope
                  carry := insertCarried s ⟨kind, start, span, d⟩ (s.engines.get l).detector.carry } }
          window :=
            { s.window with
              blocks := s.window.blocks.map (fun c =>
                if (c.number : Int) = blockNumberOf s start then c.mapRecord l LaneRecord.oneUnlisted else c) } }) := by
      simp only [t, presentSpan]
      rw [if_pos (by rw [hfull, decide_eq_true_iff]; exact Nat.not_lt.1 hroom)]
      rw [show insertCarried (s.detecting l .idle next envelope) = insertCarried s from
        funext fun c => funext fun cs =>
          insertCarried_congr (s := s) (t := s.detecting l .idle next envelope) rfl c cs]
      unfold State.detecting State.mapDetector State.mapEngine
      simp only [PerLane.get_set_self, PerLane.set_set]
      rfl
    have hcarry := insertCarried_perm s ⟨kind, start, span, d⟩ (s.engines.get l).detector.carry
    rw [ht]
    refine ⟨⟨fun h => absurd h hroom, fun _ => ⟨⟨rfl, fun p => ?_⟩, rfl, _, hcarry, insertCarried_sorted s _, rfl⟩⟩, rfl, rfl, rfl,
      rfl, rfl, fun p => ?_⟩
    · rw [settle_port, raise_port]
    · rw [settle_port]
      exact raise_quiet .unlisted s p

/-! ## One examination -/

section
variable {s : State} {l : Lane} {k : Nat} {f : Flight} {b : Block} (hwork : workOf s l = .live k f) (hstage : f.stage = .detect)
  (hb : blockNumbered s k = some b)
include hwork hstage hb

/-- Part 1 of the completion of a live render in detection is one examination (R76). -/
theorem exec_examine : exec (.liveRenderComplete l (.part 1)) s = completed (detectWork l b f s).1 := by
  have hgoes : stageOf s l ≠ some .finished := by
    unfold stageOf
    rw [hwork]
    dsimp only
    rw [hstage]
    exact fun h => (nomatch h)
  have hstep : workStep l s = (detectWork l b f s).1 := by
    unfold workStep renderStep
    rw [hwork]
    dsimp only
    rw [hb, hstage]
  have hadvance : advance l 1 s = (detectWork l b f s).1 := by
    rw [advance, if_neg hgoes, advance, hstep]
  change completed (match workOf s l, Progress.part 1 with
    | .live _ _, .part n => advance l n s
    | .live _ _, .rest => finishLive l (advance l workFuel s)
    | .none, _ => s
    | .reRender _ _, _ => s) = _
  rw [hwork, ← hadvance]

theorem exec_examine_of {u : State} {seen : Seen} (h : detectStep l f.settings b s = (u, seen)) (hseen : seen ≠ .over) :
    exec (.liveRenderComplete l (.part 1)) s = completed u := by
  rw [exec_examine hwork hstage hb]
  unfold detectWork
  rw [h]
  match seen, hseen with
  | .over, hne => exact absurd rfl hne
  | .nothing, _ | .click, _ | .void, _ => rfl

/-- Where an examination closes a span, the listing command of its kind makes that examination and no other. -/
theorem runToSpan_of {u : State} {seen : Seen} (h : detectStep l f.settings b s = (u, seen)) (hseen : seen ≠ .over) :
    runToSpan l seen workFuel s = some u := by
  have hdetect : detectWork l b f s = (u, seen) := by
    unfold detectWork
    rw [h]
    match seen, hseen with
    | .over, hne => exact absurd rfl hne
    | .nothing, _ | .click, _ | .void, _ => rfl
  have hfuel : workFuel = 16383 + 1 := rfl
  rw [hfuel, runToSpan, hwork]
  dsimp only
  rw [hb, hstage]
  dsimp only
  rw [hdetect]
  exact if_pos rfl

end

/-! ## The void run (R86, R87) -/

/-- Settles O45, by what the next position is to the run. -/
theorem voidListingEndsTheRun : Obligations.VoidListingEndsTheRun := by
  intro s l k f b start length hwork hstage hb hvoid d q examine
  have hstep : detectStep l f.settings b s =
      if pastEnd s q = true then
        (presentVoid l f.settings start length (s.mapDetector l (fun x => { x with state := .idle })), .void)
      else examineVoid l f.settings start length s := by
    unfold detectStep
    dsimp only
    rw [hvoid]
  refine ⟨fun hpast hfree hshort => ?_, fun span next hcloses => ?_⟩
  · refine exec_examine_of hwork hstage hb (seen := .nothing) ?_ (by decide)
    rw [hstep, if_neg (by rw [hpast]; exact Bool.false_ne_true)]
    unfold examineVoid
    rw [if_pos (freeVoid_iff.2 hfree)]
    exact if_neg (Nat.not_le.2 hshort)
  · intro decision
    have hclosed : detectStep l f.settings b s =
        (presentSpan l .void start span none decision (s.detecting l .idle next d.envelope), .void) := by
      rw [hstep]
      obtain ⟨hpast, rfl, rfl⟩ | ⟨hpast, hfree, rfl, rfl⟩ | ⟨hpast, hfree, hlong, rfl, rfl⟩ := hcloses
      · exact if_pos hpast
      · rw [if_neg (by rw [hpast]; exact Bool.false_ne_true)]
        exact if_neg (mt freeVoid_iff.1 hfree)
      · rw [if_neg (by rw [hpast]; exact Bool.false_ne_true)]
        unfold examineVoid
        rw [if_pos (freeVoid_iff.2 hfree)]
        exact if_pos hlong
    have hlisting : exec (.voidListing l) s =
        completed (presentSpan l .void start span none decision (s.detecting l .idle next d.envelope)) := by
      change completed ((runToSpan l .void workFuel s).getD s) = _
      rw [runToSpan_of hwork hstage hb hclosed (by decide)]
      rfl
    exact ⟨(exec_examine_of hwork hstage hb hclosed (by decide)).trans hlisting.symm, _, hlisting,
      presentSpan_presented s l .void start span none decision next d.envelope⟩

/-! ## The end of the pass (R87) -/

/-- The first position of a block of a legal window, as an offset in the pass. -/
theorem WindowLegal.passOffset_first {s : State} (h : WindowLegal s) {b : Block} (hb : b ∈ s.window.blocks) :
    passOffset s b.first = (b.number : Int) * 2048 := by
  obtain ⟨hblocks, -, -, -, hcounter, -⟩ := h
  obtain ⟨-, hlt, hfirst, -⟩ := hblocks b hb
  have hmax : s.window.counter ≤ 2 ^ 28 := hcounter
  have hsub : b.first - s.pass.start = BitVec.ofNat 40 (2048 * b.number) := by
    rw [hfirst]
    exact add_sub_cancel_left s.pass.start _
  unfold passOffset distance
  rw [hsub, BitVec.toInt_eq_toNat_cond, BitVec.toNat_ofNat]
  omega

theorem inPass_iff {s : State} (h : WindowLegal s) (hfinal : ∀ j ∈ s.window.finalBlock, ∃ c ∈ s.window.blocks, c.number = j)
    (q : Position) :
    inPass s q = true ↔ 0 ≤ passOffset s q ∧ ∀ j c, s.window.finalBlock = some j → blockNumbered s j = some c →
      passOffset s q < passOffset s c.first + c.fill := by
  unfold inPass
  cases hf : s.window.finalBlock with
  | none => simp
  | some j =>
    obtain ⟨c, hc, rfl⟩ := hfinal j hf
    have hblock := blockNumbered_of_mem h hc
    dsimp only
    rw [hblock]
    dsimp only
    rw [Bool.and_eq_true, decide_eq_true_iff, decide_eq_true_iff]
    refine and_congr_right fun _ => ⟨fun hlt i d hi hd => ?_, fun hall => ?_⟩
    · obtain rfl := Option.some.inj hi
      obtain rfl := Option.some.inj (hblock.symm.trans hd)
      rw [h.passOffset_first hc]
      exact hlt
    · have hlt := hall c.number c rfl hblock
      rwa [h.passOffset_first hc] at hlt

theorem pastEnd_iff (s : State) (q : Position) : pastEnd s q = true ↔ s.window.finalBlock ≠ none ∧ inPass s q = false := by
  unfold pastEnd
  rw [Bool.and_eq_true, Option.isSome_iff_ne_none, Bool.not_eq_true']

/-! ## The click (R77 to R85) -/

theorem clickSpan_eq (n m : Position) : clickSpan n m = ((m - n).toInt - 2).toNat + 1 := by
  unfold clickSpan distance
  omega

theorem envelopeAfter_eq (a m : Nat) : envelopeAfter a m = ((a : Int) + ((m : Int) - a) / 64).toNat := rfl

/-- The clash cut leaves what the statement says (R85). -/
theorem clashCut_of_leaves {s : State} {l : Lane} {n : Position} {span : Nat} {left : Option Nat}
    (h : ClashLeaves s l n span left) : clashCut s l n span = left := by
  have hclash : ∀ e, e ∈ s.catalogue.entries.filter (fun e => e.blocks l && entryOverlaps s e n span) ↔
      e ∈ s.catalogue.entries ∧ e.Obstructs l ∧ e.Meets s n span := fun e => by
    rw [List.mem_filter, Bool.and_eq_true, blocks_iff, entryOverlaps_iff]
  unfold clashCut
  dsimp only
  generalize s.catalogue.entries.filter (fun e => e.blocks l && entryOverlaps s e n span) = clash at hclash ⊢
  have hcovered : clash.any (fun e => entryCovers s e n) = true ↔ ∃ e ∈ clash, e.CoversPosition s n := by
    simp only [List.any_eq_true, entryCovers_iff]
  obtain ⟨⟨e, he, hcovers⟩, rfl⟩ | ⟨hnone, rfl⟩ | ⟨hclear, e, he, hlow, rfl⟩ := h
  · exact if_pos (hcovered.2 ⟨e, (hclash e).2 he, hcovers⟩)
  · obtain rfl : clash = [] := List.eq_nil_iff_forall_not_mem.2 fun e he => hnone e ((hclash e).1 he)
    rfl
  · rw [if_neg (fun h => by
      obtain ⟨x, hx, hcovers⟩ := hcovered.1 h
      exact hclear x ((hclash x).1 hx) hcovers)]
    have hmin : (clash.map (fun e => passOffset s e.start)).min? = some (passOffset s e.start) := by
      rw [List.min?_eq_some_iff]
      refine ⟨List.mem_map_of_mem ((hclash e).2 he), fun v hv => ?_⟩
      obtain ⟨x, hx, rfl⟩ := List.mem_map.1 hv
      exact hlow x ((hclash x).1 hx)
    rw [hmin]

/-- The end of a forming click, at the examination of a position (R81 to R84, R87). -/
theorem detectStep_clickCloses {s : State} {l : Lane} {p : LaneSettings} {b : Block} {n m : Position} {peak g : Nat}
    (hclick : (s.engines.get l).detector.state = .click n m peak g) {span : Nat} {next : Position} {envelope : Nat}
    (hcloses : ClickCloses s l p n m g span next envelope) :
    detectStep l p b s = (presentClick l p n span peak (s.detecting l .idle next envelope), .click) := by
  have hstep : detectStep l p b s =
      if pastEnd s (s.engines.get l).detector.next = true then
        (presentClick l p n (min (distance n (s.engines.get l).detector.next).toNat 255) peak
          (s.mapDetector l (fun x => { x with state := .idle })), .click)
      else examineClick l p n m peak g s := by
    unfold detectStep
    dsimp only
    rw [hclick]
  rw [hstep]
  have hgoes : ∀ {x : Bool}, x = false → ¬x = true := fun h => by rw [h]; exact Bool.false_ne_true
  obtain ⟨-, hpast, rfl, rfl, rfl⟩ | ⟨hpast, hnone, rfl, rfl, rfl⟩ | ⟨r, hpast, hr, rfl, hcase⟩ := hcloses
  · exact if_pos hpast
  · rw [if_neg (hgoes hpast)]
    unfold examineClick
    dsimp only
    rw [residual_none_iff.2 hnone, clickSpan_eq]
    rfl
  · rw [if_neg (hgoes hpast)]
    unfold examineClick
    dsimp only
    rw [residual_iff.2 hr]
    dsimp only
    obtain ⟨hlow, hguard, rfl, rfl⟩ | ⟨hhigh, hfar, rfl, rfl⟩ := hcase
    · rw [← clickSpan_eq]
      exact (if_neg (Nat.not_lt.2 hlow)).trans (if_pos hguard)
    · exact (if_pos hhigh).trans (if_neg (Int.not_le.2 hfar))

/-- Settles O44, by the detector's state and what the next position is. -/
theorem clickListingClosesTheClick : Obligations.ClickListingClosesTheClick := by
  refine ⟨fun s q hlegal hfinal => ⟨inPass_iff hlegal hfinal q, pastEnd_iff s q⟩, ?_⟩
  intro s l k f b hwork hstage hb d q a T examine steps
  have hnothing : ∀ {x next envelope}, detectStep l f.settings b s = (s.detecting l x next envelope, .nothing) →
      steps x next envelope := fun h => exec_examine_of hwork hstage hb h (by decide)
  refine ⟨fun hidle hover => ?_, fun hidle hin => ?_, fun n m peak g hclick => ⟨fun r hpast hr => ?_, ?_⟩⟩
  · have hstep : detectStep l f.settings b s = (s, .over) := by
      unfold detectStep
      dsimp only
      rw [hidle]
      exact if_pos hover
    have hdetect : (detectWork l b f s).1 = s.setWork l (.live k { f with stage := .mend 0 }) := by
      unfold detectWork
      rw [hstep]
      dsimp only
      unfold State.setFlight
      rw [hwork]
    exact (exec_examine hwork hstage hb).trans (congrArg completed hdetect)
  · have hstep : detectStep l f.settings b s = (examineIdle l f.settings s, .nothing) := by
      unfold detectStep
      dsimp only
      rw [hidle]
      exact if_neg (Int.not_le.2 hin)
    have hresidual : ∀ {r}, ResidualIs s l q r → ¬FreeVoid s l q := by
      rintro r ⟨x, y, z, ⟨-, ⟨v, hv, hne, -⟩, -⟩, -⟩ ⟨hvoid, -⟩
      exact hne (Option.some.inj (hv.symm.trans hvoid))
    refine ⟨fun hfree => hnothing ?_, fun hfree hnone => hnothing ?_, fun r hr => ⟨fun hhigh => hnothing ?_, fun hlow => hnothing ?_⟩⟩
    all_goals rw [hstep]; unfold examineIdle; dsimp only
    · rw [if_pos (freeVoid_iff.2 hfree)]
      rfl
    · rw [if_neg (mt freeVoid_iff.1 hfree), residual_none_iff.2 hnone]
      rfl
    · rw [if_neg (mt freeVoid_iff.1 (hresidual hr)), residual_iff.2 hr]
      dsimp only
      exact congrArg (·, Seen.nothing) (if_pos hhigh)
    · rw [if_neg (mt freeVoid_iff.1 (hresidual hr)), residual_iff.2 hr]
      dsimp only
      rw [← envelopeAfter_eq]
      exact congrArg (·, Seen.nothing) (if_neg (Nat.not_lt.2 hlow))
  · have hstep : detectStep l f.settings b s = examineClick l f.settings n m peak g s := by
      unfold detectStep
      dsimp only
      rw [hclick]
      exact if_neg (by rw [hpast]; exact Bool.false_ne_true)
    refine ⟨fun hhigh hnear => hnothing ?_, fun hlow hguard => hnothing ?_⟩
    all_goals rw [hstep]; unfold examineClick; dsimp only; rw [residual_iff.2 hr]; dsimp only
    · exact (if_pos hhigh).trans (if_pos hnear)
    · exact (if_neg (Nat.not_lt.2 hlow)).trans (if_neg (Nat.not_le.2 hguard))
  · intro span next envelope left hcloses hleaves
    have hstep := detectStep_clickCloses (b := b) hclick hcloses
    have hlisting : exec (.clickListing l) s =
        completed (presentClick l f.settings n span peak (s.detecting l .idle next envelope)) := by
      change completed ((runToSpan l .click workFuel s).getD s) = _
      rw [runToSpan_of hwork hstage hb hstep (by decide)]
      rfl
    have hcut : clashCut (s.detecting l .idle next envelope) l n span = left := clashCut_of_leaves hleaves
    refine ⟨(exec_examine_of hwork hstage hb hstep (by decide)).trans hlisting.symm, fun hleft => ?_, fun c hleft => ?_⟩
    · rw [hlisting]
      unfold presentClick
      rw [hcut, hleft]
      rfl
    · intro decision
      have hpresented : presentClick l f.settings n span peak (s.detecting l .idle next envelope) =
          presentSpan l .click n c (some peak) decision (s.detecting l .idle next envelope) := by
        unfold presentClick
        rw [hcut, hleft]
        rfl
      rw [hpresented] at hlisting
      exact ⟨_, hlisting, presentSpan_presented s l .click n c (some peak) decision next envelope⟩

end Sys2Proof.Machine
end

section
/-! One elementary step of a render (O49): the treatment of a position in the mend stage, the loading of the sound stages, and
one position of them. -/

namespace Sys2Proof.Machine

/-! ## Positions of a block in the window -/

/-- A position of a block of a legal window, as an offset in the pass. -/
theorem WindowLegal.passOffset_positionAt {s : State} (h : WindowLegal s) {b : Block} (hb : b ∈ s.window.blocks) {o : Nat}
    (ho : o < 2048) : passOffset s (positionAt b o) = (b.number : Int) * 2048 + o := by
  obtain ⟨hblocks, -, -, -, hcounter, -⟩ := h
  obtain ⟨-, hlt, hfirst, -⟩ := hblocks b hb
  have hmax : s.window.counter ≤ 2 ^ 28 := hcounter
  have hsub : positionAt b o - s.pass.start = BitVec.ofNat 40 (2048 * b.number + o) := by
    rw [positionAt, hfirst, firstPositionOf, add_assoc, BitVec.ofNat_add]
    exact add_sub_cancel_left s.pass.start _
  unfold passOffset distance
  rw [hsub, BitVec.toInt_eq_toNat_cond, BitVec.toNat_ofNat]
  omega

theorem offsetIn_positionAt (b : Block) {o : Nat} (ho : o < 2048) : offsetIn b (positionAt b o) = o := by
  unfold offsetIn positionAt
  rw [add_sub_cancel_left, BitVec.toNat_ofNat]
  omega

theorem WindowLegal.blockHolding_positionAt {s : State} (h : WindowLegal s) {b : Block} (hb : b ∈ s.window.blocks) {o : Nat}
    (ho : o < 2048) : blockHolding s (positionAt b o) = some b := by
  refine blockHolding_of_mem h hb ?_
  unfold blockNumberOf
  rw [h.passOffset_positionAt hb ho]
  simp only [Config.blockSize]
  omega

theorem WindowLegal.fill_le {s : State} (h : WindowLegal s) {b : Block} (hb : b ∈ s.window.blocks) : b.fill ≤ 2048 := by
  obtain ⟨hblocks, -⟩ := h
  obtain ⟨-, -, -, hfill, -⟩ := hblocks b hb
  exact hfill.le

/-- The original value of a written position of a block. -/
theorem WindowLegal.originalAt_positionAt {s : State} (h : WindowLegal s) {b : Block} (hb : b ∈ s.window.blocks) (l : Lane)
    {o : Nat} (ho : o < b.fill) : originalAt s l (positionAt b o) = some (readSample s b .original l o) := by
  have hlt : o < 2048 := lt_of_lt_of_le ho (h.fill_le hb)
  unfold originalAt writtenBlock
  rw [h.blockHolding_positionAt hb hlt]
  dsimp only
  rw [offsetIn_positionAt b hlt, if_pos ho, Option.map_some, offsetIn_positionAt b hlt]

/-! ## What treats a position (R91, R92) -/

theorem coversOn_iff {s : State} {l : Lane} {p : Position} {e : Entry} :
    (e.onLane l && entryCovers s e p) = true ↔ e.CoversOn s l p := by
  rw [Bool.and_eq_true, entryCovers_iff]
  refine and_congr_left fun _ => ?_
  cases h : e.lane <;> simp [Entry.onLane, h]

theorem mem_entryTreatments {s : State} {l : Lane} {p : Position} {t : Treatment} :
    t ∈ entryTreatments s l p ↔ ∃ e ∈ s.catalogue.entries, e.CoversOn s l p ∧ e.treatment = some t := by
  unfold entryTreatments
  rw [List.mem_filterMap]
  simp only [List.mem_filter, coversOn_iff, and_assoc]

theorem mem_carriedTreatments {s : State} {l : Lane} {p : Position} {t : Treatment} :
    t ∈ carriedTreatments s l p ↔
      ∃ c ∈ (s.engines.get l).detector.carry, c.CoversAt s p ∧ t = ⟨⟨c.kind, c.start⟩, c.span, c.decision⟩ := by
  unfold carriedTreatments
  rw [List.mem_map]
  simp only [List.mem_filter, and_assoc, eq_comm (a := t)]
  refine exists_congr fun c => and_congr_right fun _ => and_congr_left fun _ => ?_
  simp [covers, CarriedSpan.CoversAt]

theorem precedence_lt_iff (j k : EntryKind) : k.precedence < j.precedence ↔ mendPlace j < mendPlace k := by
  cases j <;> cases k <;> decide

/-- The one treatment of the highest kind is the highest. -/
theorem highest_of_best {ts : List Treatment} {t : Treatment} (ht : t ∈ ts)
    (hbest : ∀ u ∈ ts, u = t ∨ u.key.kind.precedence < t.key.kind.precedence) : highest ts = some t := by
  have hfold : ∀ (us : List Treatment) (best : Option Treatment), (∀ u ∈ us, u = t ∨ u.key.kind.precedence < t.key.kind.precedence) →
      (∀ u ∈ best, u = t ∨ u.key.kind.precedence < t.key.kind.precedence) → best = some t ∨ t ∈ us →
      us.foldl (fun best t =>
        match best with
        | none => some t
        | some b => if b.key.kind.precedence < t.key.kind.precedence then some t else some b) best = some t := by
    intro us
    induction us with
    | nil => exact fun best _ _ h => h.resolve_right (List.not_mem_nil)
    | cons u us ih =>
      intro best hus hb hin
      obtain ⟨hu, hus⟩ := List.forall_mem_cons.1 hus
      rw [List.foldl_cons]
      refine ih _ hus ?_ ?_
      · intro v hv
        split at hv
        · cases hv
          exact hu
        · next c =>
          split at hv <;> cases hv
          · exact hu
          · exact hb _ rfl
      · obtain rfl | hin := hin
        · dsimp only
          obtain rfl | hlt := hu
          · exact .inl (ite_self _)
          · exact .inl (if_neg (Nat.lt_asymm hlt))
        · obtain rfl | hin := List.mem_cons.1 hin
          · left
            split
            · rfl
            · next c =>
              obtain rfl | hlt := hb c rfl
              · exact ite_self _
              · exact if_pos hlt
          · exact .inr hin
  exact hfold ts none hbest (fun u hu => (nomatch hu)) (.inr ht)

/-- The anchors known after the treatments of a position: those known before, or those of the first treatment of the span. -/
theorem find?_learnAnchors (s : State) (l : Lane) (key : SpanKey) (known : List SpanAnchors) (ts : List Treatment) :
    (learnAnchors s l known ts).find? (fun a => a.key == key) =
      (known.find? (fun a => a.key == key)).or
        ((ts.find? (fun t => t.key == key)).map (fun t => ⟨t.key, readAnchors s l t.key.start t.span⟩)) := by
  induction ts generalizing known with
  | nil => rw [learnAnchors, List.find?_nil, Option.map_none, Option.or_none]
  | cons t ts ih =>
    rw [learnAnchors]
    by_cases hknown : known.any (fun a => a.key == t.key) = true
    · rw [if_pos hknown, ih]
      by_cases hkey : t.key = key
      · obtain ⟨a, ha, hak⟩ := List.any_eq_true.1 hknown
        obtain ⟨y, hy⟩ : ∃ y, known.find? (fun a => a.key == key) = some y := by
          rw [← Option.isSome_iff_exists, List.find?_isSome]
          exact ⟨a, ha, hkey ▸ hak⟩
        rw [hy, Option.some_or, Option.some_or]
      · rw [List.find?_cons_of_neg (by simpa using hkey)]
    · rw [if_neg hknown, ih, List.find?_append]
      by_cases hkey : t.key = key
      · rw [List.find?_cons_of_pos (by simpa using hkey), List.find?_cons_of_pos (by simpa using hkey), Option.map_some,
          Option.or_assoc, Option.some_or]
      · rw [List.find?_cons_of_neg (by simpa using hkey), List.find?_cons_of_neg (by simpa using hkey), List.find?_nil,
          Option.or_none]

theorem readAnchors_eq (s : State) (l : Lane) (start : Position) (span : Nat) :
    readAnchors s l start span = anchorsNow s l start span := by
  have hright : ∀ o : Option Sample, o.filter (fun v => v != Config.voidValue) =
      match o with
      | some v => if v = 0x800000#24 then none else some v
      | none => none := by
    intro o
    cases o with
    | none => rfl
    | some v => by_cases hv : v = 0x800000#24 <;> simp [Option.filter, hv, Config.voidValue]
  have hleft : ∀ a b : Option Sample, a.orElse (fun _ => b) = if a = none then b else a := by
    intro a b
    cases a <;> rfl
  let left := if start = s.pass.start then none else mendedAt s l (start - 1#40)
  exact (congrArg (fun x => (⟨x, _⟩ : Anchors)) (hleft left _)).trans
    (congrArg (fun right => (⟨if left = none then right else left, right⟩ : Anchors)) (hright _))

/-- The treatment of a position that an entry of the first place, or else a carried span, treats; and the anchors of its span
in this render (R91 to R93). -/
theorem highest_of_treats {s : State} {live : Bool} {l : Lane} {p : Position} {kind : EntryKind} {start : Position} {span : Nat}
    {d : Decision} (h : Treats s live l p kind start span d) :
    let listed := entryTreatments s l p
    let carried := if live = true then carriedTreatments s l p else []
    (highest listed).orElse (fun _ => highest carried) = some ⟨⟨kind, start⟩, span, d⟩ ∧
      (listed ++ carried).find? (fun t => t.key == ⟨kind, start⟩) = some ⟨⟨kind, start⟩, span, d⟩ := by
  intro listed carried
  have hfind : ∀ {ts : List Treatment}, (⟨⟨kind, start⟩, span, d⟩ : Treatment) ∈ ts →
      (∀ u ∈ ts, u.key = ⟨kind, start⟩ → u = ⟨⟨kind, start⟩, span, d⟩) →
      ts.find? (fun t => t.key == ⟨kind, start⟩) = some ⟨⟨kind, start⟩, span, d⟩ := by
    intro ts hmem honly
    cases hf : ts.find? (fun t => t.key == ⟨kind, start⟩) with
    | none => exact absurd (by simp) (List.find?_eq_none.1 hf _ hmem)
    | some u => rw [honly u (List.mem_of_find?_eq_some hf) (by simpa using List.find?_some hf)]
  obtain ⟨e, he, hcovers, rfl, rfl, hspan, hdecision, hfirst⟩ | ⟨hlive, hnone, c, hc, rfl, hcovers, honly⟩ := h
  · have hmem : (⟨⟨e.kind, e.start⟩, span, d⟩ : Treatment) ∈ listed :=
      mem_entryTreatments.2 ⟨e, he, hcovers, by rw [Entry.treatment, hspan, hdecision]⟩
    have hbest : ∀ u ∈ listed, u = ⟨⟨e.kind, e.start⟩, span, d⟩ ∨ u.key.kind.precedence < e.kind.precedence := by
      intro u hu
      obtain ⟨x, hx, hxcovers, htreat⟩ := mem_entryTreatments.1 hu
      obtain rfl | hplace := hfirst x hx hxcovers
      · rw [Entry.treatment, hspan, hdecision] at htreat
        exact .inl (Option.some.inj htreat).symm
      · have hkind : u.key.kind = x.kind := by
          unfold Entry.treatment at htreat
          split at htreat
          · exact (congrArg (fun t : Treatment => t.key.kind) (Option.some.inj htreat)).symm
          · cases htreat
        exact .inr (by rw [hkind, precedence_lt_iff]; exact hplace)
    refine ⟨by rw [highest_of_best hmem hbest]; rfl, ?_⟩
    rw [List.find?_append, hfind hmem (fun u hu hkey => (hbest u hu).resolve_right (by rw [hkey]; exact Nat.lt_irrefl _))]
    rfl
  · have hlisted : listed = [] := List.eq_nil_iff_forall_not_mem.2 fun u hu => by
      obtain ⟨x, hx, hxcovers, -⟩ := mem_entryTreatments.1 hu
      exact hnone x hx hxcovers
    have hcarried : carried = carriedTreatments s l p := if_pos hlive
    have hmem : (⟨⟨kind, start⟩, span, d⟩ : Treatment) ∈ carried := by
      rw [hcarried]
      exact mem_carriedTreatments.2 ⟨_, hc, hcovers, rfl⟩
    have hall : ∀ u ∈ carried, u = ⟨⟨kind, start⟩, span, d⟩ := by
      intro u hu
      rw [hcarried] at hu
      obtain ⟨y, hy, hycovers, rfl⟩ := mem_carriedTreatments.1 hu
      rw [honly y hy hycovers]
    rw [hlisted]
    exact ⟨highest_of_best hmem (fun u hu => .inl (hall u hu)), hfind hmem (fun u hu _ => hall u hu)⟩

theorem treatments_of_untreated {s : State} {live : Bool} {l : Lane} {p : Position} (h : Untreated s live l p) :
    entryTreatments s l p = [] ∧ (if live = true then carriedTreatments s l p else []) = [] := by
  obtain ⟨hentries, hcarried⟩ := h
  refine ⟨List.eq_nil_iff_forall_not_mem.2 fun u hu => ?_, ?_⟩
  · obtain ⟨x, hx, hcovers, -⟩ := mem_entryTreatments.1 hu
    exact hentries x hx hcovers
  · split
    · next hlive =>
      refine List.eq_nil_iff_forall_not_mem.2 fun u hu => ?_
      obtain ⟨y, hy, hcovers, -⟩ := mem_carriedTreatments.1 hu
      exact hcarried hlive y hy hcovers
    · rfl

/-! ## The command and the flight -/

/-- A lane's work in flight, live or a re-render, of a block. -/
def flying (live : Bool) (k : Nat) (g : Flight) : Work := if live = true then .live k g else .reRender k g

theorem flying_true (k : Nat) (g : Flight) : flying true k g = .live k g := rfl

theorem flying_false (k : Nat) (g : Flight) : flying false k g = .reRender k g := rfl

/-- The completion command of a live render or of a re-render, for one elementary step. -/
def oneStep (live : Bool) (l : Lane) : Instr :=
  if live = true then .liveRenderComplete l (.part 1) else .reRenderComplete l (.part 1)

theorem setFlight_flying {s : State} {live : Bool} {l : Lane} {k : Nat} {f : Flight}
    (h : (s.engines.get l).work = flying live k f) (g : Flight) : s.setFlight l g = s.setWork l (flying live k g) := by
  rw [setFlight_eq]
  unfold State.setWork State.mapEngine
  dsimp only
  rw [h]
  cases live <;> rfl

/-- Part 1 of a completion command is one elementary step, while positions are left. -/
theorem exec_oneStep {s : State} {live : Bool} {l : Lane} {k : Nat} {f : Flight} {b : Block}
    (hwork : (s.engines.get l).work = flying live k f) (hb : blockNumbered s k = some b) (hstage : f.stage ≠ .finished) :
    exec (oneStep live l) s = completed (renderStep live l b f s) := by
  have hwork' : workOf s l = flying live k f := hwork
  have hstop : stageOf s l ≠ some .finished := by
    unfold stageOf
    rw [hwork']
    cases live <;> exact fun h => hstage (Option.some.inj h)
  have hstep : workStep l s = renderStep live l b f s := by
    unfold workStep
    rw [hwork']
    cases live
    · rw [flying_false]
      dsimp only
      rw [hb]
    · rw [flying_true]
      dsimp only
      rw [hb]
  have hadvance : advance l 1 s = renderStep live l b f s := by
    rw [advance, if_neg hstop, advance, hstep]
  cases live
  · change completed (match workOf s l, Progress.part 1 with
      | .reRender _ _, .part n => advance l n s
      | .reRender _ _, .rest => finishReRender l (advance l workFuel s)
      | .none, _ => s
      | .live _ _, _ => s) = _
    rw [hwork', ← hadvance]
    rfl
  · change completed (match workOf s l, Progress.part 1 with
      | .live _ _, .part n => advance l n s
      | .live _ _, .rest => finishLive l (advance l workFuel s)
      | .none, _ => s
      | .reRender _ _, _ => s) = _
    rw [hwork', ← hadvance]
    rfl

/-! ## One position of the mend stage -/

theorem keptOriginal_eq {s : State} (hlegal : WindowLegal s) {b : Block} (hb : b ∈ s.window.blocks) (l : Lane) {o : Nat}
    (ho : o < b.fill) :
    keptOriginal s l (positionAt b o) = passedValue s l (positionAt b o) (readSample s b .original l o) := by
  unfold keptOriginal passedValue voidGuard
  rw [hlegal.originalAt_positionAt hb l ho]
  exact (ite_not ..).symm

/-- The anchors of a span in a render: those read before, or those that now stand (R93). -/
def spanAnchors (s : State) (l : Lane) (known : List SpanAnchors) (key : SpanKey) (span : Nat) : Anchors :=
  match known.find? (fun y => y.key == key) with
  | some y => y.anchors
  | none => anchorsNow s l key.start span

theorem mendPosition_untreated {s : State} {live : Bool} {l : Lane} {b : Block} {o : Nat}
    (h : Untreated s live l (positionAt b o)) (known : List SpanAnchors) :
    mendPosition live l b o known s =
      (if live = true then writeSample s b .mended l o (keptOriginal s l (positionAt b o)) else s, known) := by
  obtain ⟨hlisted, hcarried⟩ := treatments_of_untreated h
  unfold mendPosition
  dsimp only
  rw [hlisted, hcarried]
  rfl

/-- A treated position receives the value of its treatment, whose anchors are known from then on (R91 to R93). -/
theorem mendPosition_treated {s : State} {live : Bool} {l : Lane} {b : Block} {o : Nat} {kind : EntryKind} {start : Position}
    {span : Nat} {d : Decision} (h : Treats s live l (positionAt b o) kind start span d) (known : List SpanAnchors) :
    (mendPosition live l b o known s).1 =
        writeSample s b .mended l o
          (treatedValue s l (positionAt b o) ⟨⟨kind, start⟩, span, d⟩ (spanAnchors s l known ⟨kind, start⟩ span)) ∧
      ∃ y, (mendPosition live l b o known s).2.find? (fun z => z.key == ⟨kind, start⟩) = some y ∧
        y.anchors = spanAnchors s l known ⟨kind, start⟩ span := by
  obtain ⟨hhighest, hfirst⟩ := highest_of_treats h
  have hfind := find?_learnAnchors s l ⟨kind, start⟩ known
    (entryTreatments s l (positionAt b o) ++ (if live = true then carriedTreatments s l (positionAt b o) else []))
  rw [hfirst, Option.map_some] at hfind
  have hknown : ∃ y, (learnAnchors s l known (entryTreatments s l (positionAt b o) ++
        (if live = true then carriedTreatments s l (positionAt b o) else []))).find? (fun z => z.key == ⟨kind, start⟩) = some y ∧
      y.anchors = spanAnchors s l known ⟨kind, start⟩ span := by
    rw [hfind]
    unfold spanAnchors
    cases known.find? (fun y => y.key == ⟨kind, start⟩) with
    | none => exact ⟨_, rfl, readAnchors_eq s l start span⟩
    | some y => exact ⟨y, rfl, rfl⟩
  unfold mendPosition
  dsimp only
  rw [hhighest]
  refine ⟨?_, hknown⟩
  obtain ⟨y, hy, hanchors⟩ := hknown
  dsimp only
  unfold anchorsOf
  rw [hy, ← hanchors]

/-- The elementary step of the mend stage on a position: the one write, or none, and the anchors known after it. -/
theorem renderStep_mend {s : State} {live : Bool} {l : Lane} {k o : Nat} {f : Flight} {b : Block}
    (hwork : (s.engines.get l).work = flying live k f) (hstage : f.stage = .mend o) (ho : o < b.fill) :
    renderStep live l b f s =
      (mendPosition live l b o f.anchors s).1.setWork l
        (flying live k { f with stage := .mend (o + 1), anchors := (mendPosition live l b o f.anchors s).2 }) := by
  have hengines : ((mendPosition live l b o f.anchors s).1.engines.get l).work = flying live k f := by
    rw [← hwork]
    unfold mendPosition
    dsimp only
    split
    · rfl
    · split <;> rfl
  unfold renderStep
  rw [hstage]
  dsimp only
  rw [if_neg (Nat.not_le.2 ho)]
  exact setFlight_flying hengines _

/-- No cell but one has changed, and no block, entry, pass, tracker or right. -/
def OneCell (s t : State) (y : Nat) : Prop :=
  (∀ x, x ≠ y → readCell t.window.memory x = readCell s.window.memory x) ∧
    t.window.blocks = s.window.blocks ∧ t.catalogue = s.catalogue ∧ t.pass = s.pass ∧ t.tracker = s.tracker ∧
    t.rights = s.rights

theorem workOf_setWork (s : State) (l : Lane) (w : Work) : workOf (settle (s.setWork l w)) l = w :=
  congrArg LaneEngine.work (PerLane.get_set_self ..)

/-- The elementary step of the mend stage on a position, as the statement has it. -/
theorem mend_spec {s : State} {live : Bool} {l : Lane} {k o : Nat} {f : Flight} {b : Block} {v : Sample}
    (hwork : (s.engines.get l).work = flying live k f) (hb : blockNumbered s k = some b) (hm : Memory.wf s.window.memory)
    (hstage : f.stage = .mend o) (ho : o < b.fill)
    (hv : (mendPosition live l b o f.anchors s).1 = writeSample s b .mended l o v ∨
      ((mendPosition live l b o f.anchors s).1 = s ∧ v = readSample s b .mended l o)) :
    ∃ t g, exec (oneStep live l) s = .next t ∧ OneCell s t (sampleAddress b.slot .mended l o) ∧
      (workOf t l = flying live k g ∧ g.settings = f.settings) ∧ g.stage = .mend (o + 1) ∧
      g.anchors = (mendPosition live l b o f.anchors s).2 ∧ readSample t b .mended l o = v := by
  refine ⟨_, _, (exec_oneStep hwork hb (by rw [hstage]; exact fun h => (nomatch h))).trans
    (congrArg completed (renderStep_mend hwork hstage ho)), ?_, ⟨workOf_setWork .., rfl⟩, rfl, rfl, ?_⟩
  all_goals obtain hw | ⟨hw, rfl⟩ := hv
  · rw [hw]
    exact ⟨fun x hx => readCell_writeSample_other s b .mended l o v hx, rfl, rfl, rfl, rfl, rfl⟩
  · rw [hw]
    exact ⟨fun x _ => rfl, rfl, rfl, rfl, rfl, rfl⟩
  · rw [hw]
    exact readSample_writeSample_self hm b .mended l o v
  · rw [hw]
    rfl

/-! ## The loading of the sound stages -/

theorem HumState.load_eq (q : LaneSettings) (b : Block) (x : Snapshot) :
    HumState.load q b x =
      { phaseA := x.phaseA, phaseB := x.phaseB, point := b.start
        inc :=
          if b.start.lock = .unlocked then none
          else b.start.s8.map (fun v => ⟨(q.rhoA * 2 ^ 24 + v) / (2 * v), (q.rhoB * 2 ^ 24 + v) / (2 * v)⟩)
        slots := (List.range 12).map (fun i =>
          if i < q.harmonicsA ∨ 12 ≤ i + q.harmonicsB then x.slots.getD i ⟨0#32, 0#32⟩ else ⟨0#32, 0#32⟩) } := by
  unfold HumState.load
  cases b.start.lock <;> cases b.start.s8 <;> rfl

/-- At the fill count the mend stage is over: the carried spans that end leave, and both sound states are loaded. -/
theorem renderStep_load {s : State} {live : Bool} {l : Lane} {k o : Nat} {f : Flight} {b : Block} {r : LaneRecord}
    (hwork : (s.engines.get l).work = flying live k f) (hstage : f.stage = .mend o) (ho : b.fill ≤ o)
    (hr : b.lanes.get l = some r) :
    renderStep live l b f s =
      { s with
        engines := s.engines.set l
          { s.engines.get l with
            work := flying live k
              { f with
                stage := .sound 0, hum := some (HumState.load f.settings b r.snapshot)
                hiss := some (HissState.load f.settings r) }
            detector :=
              { (s.engines.get l).detector with
                carry :=
                  if live = true then
                    (s.engines.get l).detector.carry.filter (fun c =>
                      decide (passOffset s b.first + b.fill < passOffset s c.start + c.span))
                  else (s.engines.get l).detector.carry } } } := by
  have htrimmed : ((if live = true then trimCarry l b s else s).engines.get l).work = flying live k f := by
    rw [← hwork]
    split
    · simp only [trimCarry, State.mapDetector, State.mapEngine, PerLane.get_set_self]
    · rfl
  unfold renderStep beginSound
  rw [hstage]
  dsimp only
  rw [if_pos ho, hr]
  dsimp only
  rw [setFlight_flying htrimmed]
  unfold State.setWork State.mapEngine
  cases live
  · rfl
  · simp only [if_true, trimCarry, State.mapDetector, State.mapEngine, PerLane.get_set_self, PerLane.set_set]

/-! ## One position of the sound stages -/

theorem adaptationSuspended_iff {s : State} (hlegal : WindowLegal s) {b : Block} (hb : b ∈ s.window.blocks) {l : Lane} {o : Nat}
    (ho : o < b.fill) : adaptationSuspended s l (positionAt b o) = true ↔ Suspended s b l o := by
  have hvoid : voidAt s l (positionAt b o) = true ↔ readSample s b .original l o = 0x800000#24 := by
    unfold voidAt
    rw [hlegal.originalAt_positionAt hb l ho]
    simp [Config.voidValue]
  unfold adaptationSuspended Suspended
  rw [Bool.or_eq_true, hvoid, List.any_eq_true]
  refine or_congr Iff.rfl (exists_congr fun e => and_congr_right fun _ => ?_)
  rw [Bool.and_assoc, Bool.and_eq_true, coversOn_iff, and_comm]
  refine and_congr Iff.rfl ?_
  simp

/-- The elementary step of the sound stages on a position. -/
theorem renderStep_sound {s : State} {live : Bool} {l : Lane} {k o : Nat} {f : Flight} {b : Block} {h : HumState} {x : HissState}
    (hwork : (s.engines.get l).work = flying live k f) (hb : blockNumbered s k = some b) (hstage : f.stage = .sound o)
    (ho : o < b.fill) (hhum : f.hum = some h) (hhiss : f.hiss = some x) :
    let r := humPosition f.settings (eventsAt b o) (adaptationSuspended s l (positionAt b o))
      (readSample s b .mended l o).toInt h
    let v := hissPosition f.settings r.1 x
    renderStep live l b f s =
      { writeSample s b .restored l o v.1 with
        engines := s.engines.set l
          { s.engines.get l with
            work := flying live k { f with stage := .sound (o + 1), hum := some r.2, hiss := some v.2 }
            learn :=
              if live = true ∧ (s.engines.get l).learn.counted = some k then
                { (s.engines.get l).learn with
                  sum := (s.engines.get l).learn.sum + v.2.env.toNat, count := (s.engines.get l).learn.count + 1 }
              else (s.engines.get l).learn } } := by
  intro r v
  obtain ⟨-, hnum⟩ := mem_of_blockNumbered hb
  have hsame : ((writeSample s b .restored l o v.1).engines.get l).work = flying live k f := hwork
  have hstep : renderStep live l b f s =
      if live = true then
        learnPosition l b.number v.2.env.toNat ((writeSample s b .restored l o v.1).setFlight l
          { f with stage := .sound (o + 1), hum := some r.2, hiss := some v.2 })
      else (writeSample s b .restored l o v.1).setFlight l
        { f with stage := .sound (o + 1), hum := some r.2, hiss := some v.2 } := by
    unfold renderStep soundPosition
    rw [hstage, hhum, hhiss]
    dsimp only
    rw [if_neg (Nat.not_le.2 ho)]
  rw [hstep, setFlight_flying hsame]
  cases live
  · simp only [Bool.false_eq_true, if_false, false_and]
    rfl
  · simp only [if_true, true_and]
    unfold learnPosition
    rw [setWork_mapLearn, hnum]
    rfl

/-- The elementary step of the sound stages on a position, as the statement has it. -/
theorem sound_spec {s : State} {live : Bool} {l : Lane} {k o : Nat} {f : Flight} {b : Block} {h : HumState} {x : HissState}
    (hwork : (s.engines.get l).work = flying live k f) (hb : blockNumbered s k = some b) (hm : Memory.wf s.window.memory)
    (hstage : f.stage = .sound o) (ho : o < b.fill) (hhum : f.hum = some h) (hhiss : f.hiss = some x) :
    let r := humPosition f.settings (eventsAt b o) (adaptationSuspended s l (positionAt b o))
      (readSample s b .mended l o).toInt h
    let v := hissPosition f.settings r.1 x
    ∃ t g, exec (oneStep live l) s = .next t ∧ OneCell s t (sampleAddress b.slot .restored l o) ∧
      (workOf t l = flying live k g ∧ g.settings = f.settings) ∧ g.stage = .sound (o + 1) ∧ g.hum = some r.2 ∧
      g.hiss = some v.2 ∧ readSample t b .restored l o = v.1 ∧
      t.engines.get l =
        { s.engines.get l with
          work := flying live k g
          learn :=
            if live = true ∧ (s.engines.get l).learn.counted = some k then
              { (s.engines.get l).learn with
                sum := (s.engines.get l).learn.sum + v.2.env.toNat, count := (s.engines.get l).learn.count + 1 }
            else (s.engines.get l).learn } := by
  intro r v
  refine ⟨_, { f with stage := .sound (o + 1), hum := some r.2, hiss := some v.2 },
    (exec_oneStep hwork hb (by rw [hstage]; exact fun h => (nomatch h))).trans
      (congrArg completed (renderStep_sound hwork hb hstage ho hhum hhiss)),
    ⟨fun y hy => readCell_writeSample_other s b .restored l o v.1 hy, rfl, rfl, rfl, rfl, rfl⟩,
    ⟨congrArg LaneEngine.work (PerLane.get_set_self ..), rfl⟩, rfl, rfl, rfl,
    readSample_writeSample_self hm b .restored l o v.1, PerLane.get_set_self ..⟩

/-- In UNLOCKED at threshold 0 the sound stages copy a mended value that is not void (R112, R123). -/
theorem hissPosition_unity {q : LaneSettings} {x : HissState} {m : Sample} (hx : x.threshold = 0)
    (hm : m ≠ Config.voidValue) : (hissPosition q m.toInt x).1 = m := by
  obtain ⟨hlo, hhi⟩ := fullScale_of_ne_void hm
  have hgain : ∀ env, hissGain q x env = 32768 := fun env => if_pos (.inl hx)
  have hvalue : ∀ lp : Int, restoredValue lp (m.toInt - lp) 32768 = m.toInt := by
    intro lp
    unfold restoredValue
    rw [clampInt_fullScale]
    omega
  unfold hissPosition
  dsimp only
  rw [hgain, hvalue, BitVec.ofInt_toInt]

/-- Settles O49, stage by stage. -/
theorem unlockedUnityStepCopiesMended : Obligations.UnlockedUnityStepCopiesMended := by
  intro live s l k o f b hflies hb hlegal hm command p frame flies stands e
  have hwork : (s.engines.get l).work = flying live k f := by
    cases live <;> exact hflies
  obtain ⟨hmem, hnum⟩ := mem_of_blockNumbered hb
  refine ⟨fun hstage ho hnone => ?_, fun kind start span d hstage ho htreats => ?_, fun r hstage ho hr => ?_,
    fun hstage ho => ?_, fun h x hstage ho hhum hhiss => ⟨fun suspended hsuspended => ?_, fun hevents hlock hthreshold hvoid => ?_⟩⟩
  · have hmend := mendPosition_untreated hnone f.anchors
    rw [keptOriginal_eq hlegal hmem l ho] at hmend
    obtain ⟨t, g, hexec, hframe, hstands, hgstage, -, hread⟩ :=
      mend_spec (v := if live = true then passedValue s l p (readSample s b .original l o) else readSample s b .mended l o)
        hwork hb hm hstage ho (by
          rw [hmend]
          cases live
          · exact .inr ⟨rfl, rfl⟩
          · exact .inl rfl)
    exact ⟨t, g, hexec, hframe, hstands, hgstage, hread⟩
  · intro a
    obtain ⟨hmend, y, hy, hanchors⟩ := mendPosition_treated htreats f.anchors
    obtain ⟨t, g, hexec, hframe, hstands, hgstage, hganchors, hread⟩ := mend_spec hwork hb hm hstage ho (.inl hmend)
    have ha : a = spanAnchors s l f.anchors ⟨kind, start⟩ span := rfl
    refine ⟨t, g, hexec, hframe, hstands, hgstage, ⟨y, by rw [hganchors]; exact hy, hanchors.trans ha.symm⟩, ?_⟩
    rw [hread, ← ha]
    unfold treatedValue
    rw [keptOriginal_eq hlegal hmem l ho]
    rfl
  · exact (exec_oneStep hwork hb (by rw [hstage]; exact fun h => (nomatch h))).trans
      (congrArg completed ((renderStep_load hwork hstage ho hr).trans (by rw [HumState.load_eq]; rfl)))
  · have hstep : renderStep live l b f s = s.setWork l (flying live k { f with stage := .finished }) := by
      unfold renderStep
      rw [hstage]
      dsimp only
      rw [if_pos ho]
      exact setFlight_flying hwork _
    exact (exec_oneStep hwork hb (by rw [hstage]; exact fun h => (nomatch h))).trans (congrArg completed hstep)
  · intro events r v
    have hsus : adaptationSuspended s l (positionAt b o) = suspended := by
      rw [Bool.eq_iff_iff, hsuspended, adaptationSuspended_iff hlegal hmem ho]
    have hspec := sound_spec hwork hb hm hstage ho hhum hhiss
    rw [hsus] at hspec
    exact hspec
  · have hquiet : eventsAt b o = [] := by
      unfold eventsAt
      rw [List.map_eq_nil_iff, List.filter_eq_nil_iff]
      exact fun y hy heq => hevents y hy (beq_iff_eq.1 heq)
    have hcopy : humPosition f.settings (eventsAt b o) (adaptationSuspended s l (positionAt b o))
        (readSample s b .mended l o).toInt h = ((readSample s b .mended l o).toInt, h) := by
      unfold humPosition
      rw [hquiet]
      dsimp only [List.foldl_nil]
      rw [hlock]
    have hspec := sound_spec hwork hb hm hstage ho hhum hhiss
    rw [hcopy] at hspec
    obtain ⟨t, g, hexec, hframe, hstands, hgstage, hghum, -, hread, -⟩ := hspec
    exact ⟨t, g, hexec, hframe, hstands, hgstage, hghum, hread.trans (hissPosition_unity hthreshold hvoid)⟩

end Sys2Proof.Machine
end

section
/-! A render from its take to its completion (O48): how far detection goes, the mend and sound stages position by position,
and what the completion leaves of the memory. -/

namespace Sys2Proof.Machine

/-! ## Elementary steps in a row -/

theorem advance_step {l : Lane} {s : State} (h : stageOf s l ≠ some .finished) (n : Nat) :
    advance l (n + 1) s = advance l n (workStep l s) := by
  rw [advance, if_neg h]

/-- The work gets from one state to another in so many elementary steps. -/
def Arrives (l : Lane) (n : Nat) (s t : State) : Prop := ∀ m, advance l (n + m) s = advance l m t

theorem Arrives.refl (l : Lane) (s : State) : Arrives l 0 s s := fun m => by rw [Nat.zero_add]

theorem Arrives.trans {l : Lane} {m n : Nat} {s t u : State} (h : Arrives l m s t) (h' : Arrives l n t u) :
    Arrives l (m + n) s u := fun i => by rw [Nat.add_assoc, h, h']

theorem Arrives.of_step {l : Lane} {s : State} (h : stageOf s l ≠ some .finished) : Arrives l 1 s (workStep l s) := fun m => by
  rw [Nat.add_comm, advance_step h]

/-- A render that arrives at its end in time gets there in the fuel of a completion. -/
theorem Arrives.advance_fuel {l : Lane} {n : Nat} {s t : State} (h : Arrives l n s t) (hn : n ≤ workFuel)
    (ht : stageOf t l = some .finished) : advance l workFuel s = t := by
  obtain ⟨m, hm⟩ := Nat.exists_eq_add_of_le hn
  rw [hm, h, advance_finished ht]

/-! ## The mend and sound stages -/

section
variable (live : Bool) (l : Lane) (k : Nat) (b : Block)

/-- A render in flight, in a state that differs from the one it began in by cells of the block's mended and restored arrays
alone, as far as block and memory go. -/
structure RenderAt (s0 s : State) (f : Flight) : Prop where
  work   : (s.engines.get l).work = flying live k f
  blocks : s.window.blocks = s0.window.blocks
  wf     : Memory.wf s.window.memory
  cells  : ∀ y, (∀ o, o < b.fill → y ≠ sampleAddress b.slot .mended l o ∧ y ≠ sampleAddress b.slot .restored l o) →
    readCell s.window.memory y = readCell s0.window.memory y

/-- The restored values below an offset lie in full scale. -/
def RestoredBelow (s : State) (n : Nat) : Prop :=
  ∀ o, o < n → -8388607 ≤ (readSample s b .restored l o).toInt ∧ (readSample s b .restored l o).toInt ≤ 8388607

end

section
variable {live : Bool} {l : Lane} {k : Nat} {b : Block} {s0 : State} (hb : blockNumbered s0 k = some b)
  (hfill : b.fill ≤ 2048)
include hb

theorem RenderAt.block {s : State} {f : Flight} (h : RenderAt live l k b s0 s f) : blockNumbered s k = some b := by
  rw [← hb]
  unfold blockNumbered
  rw [h.blocks]

theorem RenderAt.step {s : State} {f : Flight} (h : RenderAt live l k b s0 s f) (hstage : f.stage ≠ .finished) :
    Arrives l 1 s (renderStep live l b f s) := by
  have hwork : workOf s l = flying live k f := h.work
  have hstop : stageOf s l ≠ some .finished := by
    unfold stageOf
    rw [hwork]
    cases live <;> exact fun h => hstage (Option.some.inj h)
  have hstep : workStep l s = renderStep live l b f s := by
    unfold workStep
    rw [hwork]
    cases live
    · rw [flying_false]
      dsimp only
      rw [h.block hb]
    · rw [flying_true]
      dsimp only
      rw [h.block hb]
  exact hstep ▸ Arrives.of_step hstop

/-- The mend stage from an offset on. -/
theorem RenderAt.mends {d o : Nat} (hd : o + d = b.fill) {s : State} {f : Flight} (h : RenderAt live l k b s0 s f)
    (hstage : f.stage = .mend o) :
    ∃ t g, RenderAt live l k b s0 t g ∧ g.stage = .mend b.fill ∧ Arrives l d s t := by
  induction d generalizing o s f with
  | zero => exact ⟨s, f, h, by rw [hstage, ← hd, Nat.add_zero], .refl l s⟩
  | succ d ih =>
    have ho : o < b.fill := by omega
    have hnext := renderStep_mend h.work hstage ho
    have hmemory : (mendPosition live l b o f.anchors s).1.window.memory = s.window.memory ∨
        ∃ v, (mendPosition live l b o f.anchors s).1.window.memory =
          writeCell s.window.memory (sampleAddress b.slot .mended l o) v := by
      unfold mendPosition
      dsimp only
      split
      · exact .inr ⟨_, rfl⟩
      · split
        · exact .inr ⟨_, rfl⟩
        · exact .inl rfl
    have hblocks : (mendPosition live l b o f.anchors s).1.window.blocks = s.window.blocks := by
      unfold mendPosition
      dsimp only
      split
      · rfl
      · split <;> rfl
    have hat : RenderAt live l k b s0 (renderStep live l b f s)
        { f with stage := .mend (o + 1), anchors := (mendPosition live l b o f.anchors s).2 } := by
      rw [hnext]
      refine ⟨congrArg LaneEngine.work (PerLane.get_set_self ..), hblocks.trans h.blocks, ?_, fun y hy => ?_⟩
      · change Memory.wf (mendPosition live l b o f.anchors s).1.window.memory
        obtain hm | ⟨v, hm⟩ := hmemory <;> rw [hm]
        · exact h.wf
        · exact writeCell_wf h.wf _ _
      · change readCell (mendPosition live l b o f.anchors s).1.window.memory y = _
        obtain hm | ⟨v, hm⟩ := hmemory <;> rw [hm]
        · exact h.cells y hy
        · rw [readCell_writeCell_other v (hy o ho).1]
          exact h.cells y hy
    obtain ⟨t, g, ht, hg, harrives⟩ := ih (by omega) hat rfl
    exact ⟨t, g, ht, hg, by
      rw [Nat.add_comm d 1]
      exact (h.step hb (by rw [hstage]; exact fun hn => (nomatch hn))).trans harrives⟩

include hfill

/-- The sound stages from an offset on. -/
theorem RenderAt.sounds {d o : Nat} (hd : o + d = b.fill) {s : State} {f : Flight} (h : RenderAt live l k b s0 s f)
    (hstage : f.stage = .sound o) (hhum : f.hum.isSome = true) (hhiss : f.hiss.isSome = true)
    (hrestored : RestoredBelow l b s o) :
    ∃ t g, RenderAt live l k b s0 t g ∧ g.stage = .sound b.fill ∧ g.hum.isSome = true ∧ g.hiss.isSome = true ∧
      RestoredBelow l b t b.fill ∧ Arrives l d s t := by
  induction d generalizing o s f with
  | zero =>
    rw [Nat.add_zero] at hd
    subst hd
    exact ⟨s, f, h, hstage, hhum, hhiss, hrestored, .refl l s⟩
  | succ d ih =>
    have ho : o < b.fill := by omega
    obtain ⟨x, hx⟩ := Option.isSome_iff_exists.1 hhum
    obtain ⟨z, hz⟩ := Option.isSome_iff_exists.1 hhiss
    have hnext := renderStep_sound h.work (h.block hb) hstage ho hx hz
    dsimp only at hnext
    generalize humPosition f.settings (eventsAt b o) (adaptationSuspended s l (positionAt b o))
      (readSample s b .mended l o).toInt x = r at hnext
    have hrange := hissPosition_toInt_range f.settings r.1 z
    generalize hissPosition f.settings r.1 z = v at hnext hrange
    have hat : RenderAt live l k b s0 (renderStep live l b f s)
        { f with stage := .sound (o + 1), hum := some r.2, hiss := some v.2 } := by
      rw [hnext]
      refine ⟨congrArg LaneEngine.work (PerLane.get_set_self ..), h.blocks, writeCell_wf h.wf _ _, fun y hy => ?_⟩
      exact (readCell_writeSample_other s b .restored l o v.1 (hy o ho).2).trans (h.cells y hy)
    have hbelow : RestoredBelow l b (renderStep live l b f s) (o + 1) := by
      rw [hnext]
      intro i hi
      by_cases hio : i = o
      · subst hio
        have hself := readSample_writeSample_self h.wf b .restored l i v.1
        change -8388607 ≤ (readSample (writeSample s b .restored l i v.1) b .restored l i).toInt ∧
          (readSample (writeSample s b .restored l i v.1) b .restored l i).toInt ≤ 8388607
        rw [hself]
        exact hrange
      · have hother : readSample (writeSample s b .restored l o v.1) b .restored l i = readSample s b .restored l i := by
          refine readCell_writeSample_other s b .restored l o v.1 fun haddr => hio ?_
          obtain ⟨-, -, -, hi'⟩ := sampleAddress_injective (show i < 2048 by omega) (show o < 2048 by omega) haddr
          exact hi'
        change -8388607 ≤ (readSample (writeSample s b .restored l o v.1) b .restored l i).toInt ∧
          (readSample (writeSample s b .restored l o v.1) b .restored l i).toInt ≤ 8388607
        rw [hother]
        exact hrestored i (by omega)
    obtain ⟨t, g, ht, hg, hghum, hghiss, htbelow, harrives⟩ := ih (by omega) hat rfl rfl rfl hbelow
    exact ⟨t, g, ht, hg, hghum, hghiss, htbelow, by
      rw [Nat.add_comm d 1]
      exact (h.step hb (by rw [hstage]; exact fun hn => (nomatch hn))).trans harrives⟩

/-- A render from the start of its mend stage to its end. -/
theorem RenderAt.finishes {s : State} {f : Flight} (h : RenderAt live l k b s0 s f) (hstage : f.stage = .mend 0)
    (hlane : (b.lanes.get l).isSome = true) :
    ∃ t g, RenderAt live l k b s0 t g ∧ g.stage = .finished ∧ RestoredBelow l b t b.fill ∧
      Arrives l (2 * b.fill + 2) s t := by
  obtain ⟨u, g, hu, hg, hmends⟩ := h.mends hb (Nat.zero_add _) hstage
  obtain ⟨r, hr⟩ := Option.isSome_iff_exists.1 hlane
  have hload := renderStep_load hu.work hg (le_refl _) hr
  have hloaded : RenderAt live l k b s0 (renderStep live l b g u)
      { g with
        stage := .sound 0, hum := some (HumState.load g.settings b r.snapshot)
        hiss := some (HissState.load g.settings r) } := by
    rw [hload]
    exact ⟨congrArg LaneEngine.work (PerLane.get_set_self ..), hu.blocks, hu.wf, hu.cells⟩
  obtain ⟨v, y, hv, hy, -, -, hbelow, hsounds⟩ :=
    hloaded.sounds hb hfill (Nat.zero_add _) rfl rfl rfl (fun o ho => absurd ho (Nat.not_lt_zero o))
  have hend : renderStep live l b y v = v.setWork l (flying live k { y with stage := .finished }) := by
    unfold renderStep
    rw [hy]
    dsimp only
    rw [if_pos (le_refl _)]
    exact setFlight_flying hv.work _
  refine ⟨renderStep live l b y v, { y with stage := .finished }, ?_, rfl, ?_, ?_⟩
  · rw [hend]
    exact ⟨congrArg LaneEngine.work (PerLane.get_set_self ..), hv.blocks, hv.wf, hv.cells⟩
  · rw [hend]
    exact hbelow
  · have hsteps : 2 * b.fill + 2 = b.fill + (1 + (b.fill + 1)) := by omega
    rw [hsteps]
    exact hmends.trans ((hu.step hb (by rw [hg]; exact fun hn => (nomatch hn))).trans
      (hsounds.trans (hv.step hb (by rw [hy]; exact fun hn => (nomatch hn)))))

end

/-! ## The completion -/

/-- Two states whose blocks differ in their states alone, with one memory and one work of every lane. -/
structure LanesKept (s t : State) : Prop where
  memory : t.window.memory = s.window.memory
  work   : ∀ l, workOf t l = workOf s l
  blocks : ∃ g : Block → Block, t.window.blocks = s.window.blocks.map g ∧ ∀ c, (g c).number = c.number ∧ (g c).lanes = c.lanes

theorem LanesKept.refl (s : State) : LanesKept s s := ⟨rfl, fun _ => rfl, id, (List.map_id _).symm, fun _ => ⟨rfl, rfl⟩⟩

theorem LanesKept.trans {s t u : State} (h : LanesKept s t) (h' : LanesKept t u) : LanesKept s u := by
  obtain ⟨hm, hw, g, hg, hkept⟩ := h
  obtain ⟨hm', hw', g', hg', hkept'⟩ := h'
  refine ⟨hm'.trans hm, fun l => (hw' l).trans (hw l), g' ∘ g, by rw [hg', hg, List.map_map], fun c => ?_⟩
  obtain ⟨hn, hl⟩ := hkept c
  obtain ⟨hn', hl'⟩ := hkept' (g c)
  exact ⟨hn'.trans hn, hl'.trans hl⟩

theorem LanesKept.of_window {s t : State} (hw : t.window = s.window) (hwork : ∀ l, workOf t l = workOf s l) : LanesKept s t :=
  ⟨congrArg Window.memory hw, hwork, id, by rw [hw, List.map_id], fun _ => ⟨rfl, rfl⟩⟩

theorem LanesKept.releaseRule (s : State) : LanesKept s (releaseRule s) := by
  obtain ⟨-, -, -, heng, -, hwindow, -⟩ := releaseRule_frame s
  refine ⟨by rw [hwindow], fun l => by unfold workOf; rw [heng], _, releaseRule_blocks s, fun c => ?_⟩
  obtain ⟨-, hn, -, -, -, hl⟩ := Block.releasedIn_frame (releasable s s.window.blocks) c
  exact ⟨hn, hl⟩

theorem LanesKept.makeHeld (k : Nat) (s : State) : LanesKept s (makeHeld k s) := by
  unfold Machine.makeHeld
  split
  · exact .refl s
  · split
    · refine LanesKept.trans ?_ (.releaseRule _)
      refine ⟨rfl, fun _ => rfl, _, rfl, fun c => ?_⟩
      split
      · dsimp only
        split <;> exact ⟨rfl, rfl⟩
      · exact ⟨rfl, rfl⟩
    · exact .refl s

theorem LanesKept.learnCompletion (l : Lane) (k : Nat) (s : State) : LanesKept s (learnCompletion l k s) := by
  have hwork : ∀ y, workOf (s.mapEngine l (LaneEngine.learnCompleted · k)) y = workOf s y := fun y => by
    unfold workOf State.mapEngine
    dsimp only
    rw [PerLane.get_set]
    split
    · next h => rw [h]; rfl
    · rfl
  rw [learnCompletion_eq]
  split <;> exact .of_window rfl hwork

theorem LanesKept.raiseRendered (l : Lane) (done : Bool) (s : State) : LanesKept s (raiseRendered l done s) := by
  unfold Machine.raiseRendered
  split
  · exact .of_window rfl (fun _ => rfl)
  · exact .refl s

theorem LanesKept.settle (s : State) : LanesKept s (settle s) := .of_window rfl (fun _ => rfl)

/-- The completion of a live render keeps what it has written of the lanes. -/
theorem finishLive_kept {s : State} {l : Lane} {k : Nat} {f : Flight} {b : Block} (hwork : workOf s l = .live k f)
    (hb : blockNumbered s k = some b) (hstage : f.stage = .finished) :
    LanesKept (writeCompletion l b f s) (finishLive l s) := by
  unfold finishLive
  rw [hwork]
  dsimp only
  rw [hb]
  dsimp only
  rw [if_pos hstage]
  have hkept := (LanesKept.learnCompletion l k (writeCompletion l b f s)).trans (.makeHeld k _)
  split
  · exact hkept.trans (.releaseRule _)
  · exact hkept

theorem finishReRender_kept {s : State} {l : Lane} {k : Nat} {f : Flight} {b : Block} (hwork : workOf s l = .reRender k f)
    (hb : blockNumbered s k = some b) (hstage : f.stage = .finished) :
    LanesKept (writeCompletion l b f s) (finishReRender l s) := by
  unfold finishReRender
  rw [hwork]
  dsimp only
  rw [hb]
  dsimp only
  rw [if_pos hstage]
  refine LanesKept.trans ?_ (.raiseRendered ..)
  split
  · exact .releaseRule _
  · exact .refl _

/-- What a completion writes of the blocks: every record of the lane in block k is DONE, or STALE where it was dirty. -/
theorem writeCompletion_blocks (l : Lane) (b : Block) (f : Flight) (s : State) :
    (writeCompletion l b f s).window.memory = s.window.memory ∧ workOf (writeCompletion l b f s) l = .none ∧
      ∃ g : Block → Block, (writeCompletion l b f s).window.blocks = s.window.blocks.map g ∧
        ∀ c, (g c).number = c.number ∧ (c.number = b.number →
          (g c).renderOf l = (c.lanes.get l).map (fun r => if r.dirty = true then .stale else .done)) := by
  have hself : ∀ c : Block, (c.mapRecord l (LaneRecord.complete (inputPeakOf s b l) (outputPeakOf s b l))).renderOf l =
      (c.lanes.get l).map (fun r => if r.dirty = true then .stale else .done) := fun c => by
    unfold Block.renderOf Block.mapRecord
    rw [PerLane.get_set_self, Option.map_map]
    rfl
  unfold writeCompletion
  cases f.snapshot with
  | none =>
    refine ⟨rfl, congrArg LaneEngine.work (PerLane.get_set_self ..), _, rfl, fun c => ⟨?_, fun hn => ?_⟩⟩
    · split <;> rfl
    · rw [if_pos hn]
      exact hself c
  | some x =>
    refine ⟨rfl, congrArg LaneEngine.work (PerLane.get_set_self ..), _, List.map_map, fun c => ⟨?_, fun hn => ?_⟩⟩
    · rw [Function.comp_apply]
      split <;> split <;> rfl
    · rw [Function.comp_apply, if_pos hn]
      refine (congrArg (Block.renderOf · l) (if_neg ?_)).trans (hself c)
      change c.number ≠ b.number + 1
      omega

/-- The end of a render: the states that the completion command goes through and what they come to. -/
theorem completion_of_arrives {live : Bool} {l : Lane} {k : Nat} {b : Block} {s t : State} {g : Flight}
    (hb : blockNumbered s k = some b) (ht : RenderAt live l k b s t g) (hstage : g.stage = .finished)
    (hrestored : RestoredBelow l b t b.fill) :
    let v := settle (if live = true then finishLive l t else finishReRender l t)
    workOf v l = .none ∧ v.window.memory = t.window.memory ∧ RestoredBelow l b v b.fill ∧
      ∃ f : Block → Block, v.window.blocks = s.window.blocks.map f ∧
        ∀ c, (f c).number = c.number ∧ (c.number = k →
          (f c).renderOf l = (c.lanes.get l).map (fun r => if r.dirty = true then .stale else .done)) := by
  intro v
  obtain ⟨-, hnum⟩ := mem_of_blockNumbered hb
  have hwork : workOf t l = flying live k g := ht.work
  have hkept : LanesKept (writeCompletion l b g t) v := by
    refine LanesKept.trans ?_ (.settle _)
    cases live
    · exact finishReRender_kept hwork (ht.block hb) hstage
    · exact finishLive_kept hwork (ht.block hb) hstage
  obtain ⟨hm, hw, f, hf, hlanes⟩ := writeCompletion_blocks l b g t
  obtain ⟨hm', hw', f', hf', hsame⟩ := hkept
  have hmemory : v.window.memory = t.window.memory := hm'.trans hm
  refine ⟨(hw' l).trans hw, hmemory, fun o ho => ?_, f' ∘ f, by rw [hf', hf, List.map_map, ht.blocks], fun c => ?_⟩
  · unfold readSample
    rw [hmemory]
    exact hrestored o ho
  · obtain ⟨hn, hr⟩ := hlanes c
    obtain ⟨hn', hl'⟩ := hsame (f c)
    refine ⟨hn'.trans hn, fun hk => ?_⟩
    rw [← hr (hk.trans hnum.symm)]
    unfold Block.renderOf
    rw [Function.comp_apply, hl']

/-! ## Detection -/

/-- A lane record is WORKING and clean. -/
def Clean (r : LaneRecord) : Prop := r.render = .working ∧ r.dirty = false

/-- A block that differs from another at most in its records' unlisted counts. -/
structure Block.SameBut (b c : Block) (l : Lane) : Prop where
  slot   : c.slot = b.slot
  number : c.number = b.number
  first  : c.first = b.first
  fill   : c.fill = b.fill
  lane   : ∀ r, b.lanes.get l = some r → Clean r → ∃ x, c.lanes.get l = some x ∧ Clean x

theorem Block.SameBut.refl (b : Block) (l : Lane) : b.SameBut b l := ⟨rfl, rfl, rfl, rfl, fun r hr hc => ⟨r, hr, hc⟩⟩

theorem Block.SameBut.trans {b c d : Block} {l : Lane} (h : b.SameBut c l) (h' : c.SameBut d l) : b.SameBut d l := by
  obtain ⟨h1, h2, h3, h4, h5⟩ := h
  obtain ⟨k1, k2, k3, k4, k5⟩ := h'
  refine ⟨k1.trans h1, k2.trans h2, k3.trans h3, k4.trans h4, fun r hr hc => ?_⟩
  obtain ⟨y, hy, hyc⟩ := h5 r hr hc
  exact k5 y hy hyc

/-- A span presented: the detector's state and next position, the work and the memory stay, and the blocks but for counts. -/
structure SpanKept (l : Lane) (s t : State) : Prop where
  memory   : t.window.memory = s.window.memory
  work     : workOf t l = workOf s l
  detector : (t.engines.get l).detector.state = (s.engines.get l).detector.state ∧
    (t.engines.get l).detector.next = (s.engines.get l).detector.next
  blocks   : ∃ g : Block → Block, t.window.blocks = s.window.blocks.map g ∧ ∀ c : Block, c.SameBut (g c) l

theorem SpanKept.refl (l : Lane) (s : State) : SpanKept l s s :=
  ⟨rfl, rfl, ⟨rfl, rfl⟩, id, (List.map_id _).symm, fun c => .refl c l⟩

theorem SpanKept.presentSpan (l : Lane) (kind : EntryKind) (start : Position) (span : Nat) (peak : Option Nat) (d : Decision)
    (s : State) : SpanKept l s (presentSpan l kind start span peak d s) := by
  unfold Machine.presentSpan
  split
  · have hself := State.mapDetector_get_self s l
      (fun x => { x with carry := insertCarried s ⟨kind, start, span, d⟩ x.carry })
    refine ⟨rfl, (congrArg LaneEngine.work hself :), ⟨(congrArg (fun e : LaneEngine => e.detector.state) hself :),
      (congrArg (fun e : LaneEngine => e.detector.next) hself :)⟩, _, rfl, fun c => ?_⟩
    split
    · refine ⟨rfl, rfl, rfl, rfl, fun r hr hc => ⟨r.countUnlisted, ?_, hc⟩⟩
      unfold Block.mapRecord
      rw [PerLane.get_set_self, hr]
      rfl
    · exact .refl c l
  · generalize ({ number := 0, kind := kind, lane := some l, start := start, span := some span, peak := peak,
                  decision := some d, decidedBy := .default, reported := none, fixed := false } : Entry) = e
    obtain ⟨-, -, -, -, hwindow, heng, -⟩ := listEntry_frame e s
    refine ⟨by rw [hwindow], by unfold workOf; rw [heng], by rw [heng]; exact ⟨rfl, rfl⟩, id, by rw [hwindow, List.map_id],
      fun c => .refl c l⟩

theorem SpanKept.presentClick (l : Lane) (p : LaneSettings) (start : Position) (span peak : Nat) (s : State) :
    SpanKept l s (presentClick l p start span peak s) := by
  unfold Machine.presentClick
  split
  · exact .refl l s
  · exact .presentSpan ..

/-- One examination of a lane's detector: its state and next position after it; work, memory and blocks as a span presented
keeps them. -/
structure Examined (l : Lane) (s t : State) (x : Detecting) (next : Position) : Prop where
  memory : t.window.memory = s.window.memory
  work   : workOf t l = workOf s l
  state  : (t.engines.get l).detector.state = x
  next   : (t.engines.get l).detector.next = next
  blocks : ∃ g : Block → Block, t.window.blocks = s.window.blocks.map g ∧ ∀ c : Block, c.SameBut (g c) l

theorem Examined.mapDetector (l : Lane) (s : State) (f : Detector → Detector) :
    Examined l s (s.mapDetector l f) (f (s.engines.get l).detector).state (f (s.engines.get l).detector).next := by
  have hself := State.mapDetector_get_self s l f
  exact ⟨rfl, (congrArg LaneEngine.work hself :), (congrArg (fun e : LaneEngine => e.detector.state) hself :),
    (congrArg (fun e : LaneEngine => e.detector.next) hself :), id, (List.map_id _).symm, fun c => .refl c l⟩

theorem Examined.consume (l : Lane) (s : State) (x : Detecting) :
    Examined l s (s.mapDetector l (fun d => d.consume x)) x ((s.engines.get l).detector.next + 1#40) := .mapDetector ..

theorem Examined.kept {l : Lane} {s t u : State} {x : Detecting} {next : Position} (h : Examined l s t x next)
    (hu : SpanKept l t u) : Examined l s u x next := by
  obtain ⟨hm, hw, hs, hn, g, hg, hsame⟩ := h
  obtain ⟨hm', hw', ⟨hs', hn'⟩, g', hg', hsame'⟩ := hu
  exact ⟨hm'.trans hm, hw'.trans hw, hs'.trans hs, hn'.trans hn, g' ∘ g, by rw [hg', hg, List.map_map],
    fun c => (hsame c).trans (hsame' (g c))⟩

/-- How far a detector has come in a block, by its state: a click began in the block and ends within 264 positions of its
start, a void run within 2048 of its. -/
def DetectorAt (first : Position) (x : Detecting) (next : Position) (j : Nat) : Prop :=
  next = first + BitVec.ofNat 40 j ∧
    match x with
    | .idle => j ≤ 4096
    | .click n _ _ g =>
      ∃ a c, a < 2048 ∧ n = first + BitVec.ofNat 40 a ∧ a ≤ c ∧ c ≤ a + 256 ∧ j = c + 1 + g ∧ g < 8
    | .void _ length => ∃ a, a < 2048 ∧ j = a + length ∧ length < 2048

/-- The elementary steps that detection may still need: two for each position that it may examine, one of them the close of a
span that consumes none. -/
def Detecting.left (x : Detecting) (j : Nat) : Nat :=
  2 * (4097 - j) + match x with
    | .idle => 0
    | .click .. => 1
    | .void .. => 1

theorem distance_of_offsets (first : Position) {a j : Nat} (ha : a ≤ j) (hj : j < 2 ^ 39) :
    distance (first + BitVec.ofNat 40 a) (first + BitVec.ofNat 40 j) = (j - a : Nat) := by
  have hsub : first + BitVec.ofNat 40 j - (first + BitVec.ofNat 40 a) = BitVec.ofNat 40 (j - a) := by
    obtain ⟨d, rfl⟩ := Nat.exists_eq_add_of_le ha
    rw [BitVec.ofNat_add, ← add_assoc, add_sub_cancel_left, Nat.add_sub_cancel_left]
  unfold distance
  rw [hsub, BitVec.toInt_eq_toNat_cond, BitVec.toNat_ofNat]
  omega

theorem ofNat_succ (first : Position) (j : Nat) :
    first + BitVec.ofNat 40 j + 1#40 = first + BitVec.ofNat 40 (j + 1) := by
  rw [BitVec.ofNat_add, ← add_assoc]

/-- One elementary step of detection: its end, or an examination that leaves fewer steps to be made. -/
def StepsOn (l : Lane) (first : Position) (s : State) (x : Detecting) (j : Nat) (r : State × Seen) : Prop :=
  r.2 ≠ .over ∧ ∃ y next i, Examined l s r.1 y next ∧ DetectorAt first y next i ∧ y.left i < x.left j

section
variable {l : Lane} {p : LaneSettings} {first : Position} {s : State} {j : Nat}

theorem examineIdle_stepsOn (hat : DetectorAt first .idle (s.engines.get l).detector.next j) (hj : j < 2048) :
    StepsOn l first s .idle j (examineIdle l p s, .nothing) := by
  obtain ⟨hnext, -⟩ := hat
  have hsucc : (s.engines.get l).detector.next + 1#40 = first + BitVec.ofNat 40 (j + 1) := by rw [hnext, ofNat_succ]
  refine ⟨fun h => (nomatch h), ?_⟩
  unfold examineIdle
  dsimp only
  split
  · exact ⟨_, _, j + 1, .mapDetector .., ⟨hsucc, j, hj, rfl, by decide⟩, by simp only [Detector.consume, Detecting.left]; omega⟩
  · split
    · exact ⟨_, _, j + 1, .mapDetector .., ⟨hsucc, by show j + 1 ≤ 4096; omega⟩,
        by simp only [Detector.consume, Detecting.left]; omega⟩
    · split
      · exact ⟨_, _, j + 1, .mapDetector .., ⟨hsucc, j, j, hj, hnext, le_refl _, by omega, rfl, by decide⟩,
          by simp only [Detector.consume, Detecting.left]; omega⟩
      · exact ⟨_, _, j + 1, .mapDetector .., ⟨hsucc, by show j + 1 ≤ 4096; omega⟩,
          by simp only [Detector.consume, Detecting.left]; omega⟩

theorem examineClick_stepsOn {n m : Position} {peak g : Nat} (hguard : p.guardLen ≤ 8)
    (hat : DetectorAt first (.click n m peak g) (s.engines.get l).detector.next j) :
    StepsOn l first s (.click n m peak g) j (examineClick l p n m peak g s) := by
  obtain ⟨hnext, a, c, ha, rfl, hac, hca, hj, hg⟩ := hat
  have hsucc : (s.engines.get l).detector.next + 1#40 = first + BitVec.ofNat 40 (j + 1) := by rw [hnext, ofNat_succ]
  have hdist : distance (first + BitVec.ofNat 40 a) (s.engines.get l).detector.next = (j - a : Nat) := by
    rw [hnext]
    exact distance_of_offsets first (by omega) (by omega)
  unfold StepsOn examineClick
  dsimp only
  split
  · exact ⟨fun h => (nomatch h), _, _, j, (Examined.mapDetector ..).kept (.presentClick ..), ⟨hnext, by show j ≤ 4096; omega⟩,
      by simp only [Detecting.left]; omega⟩
  · split
    · rw [hdist]
      split
      · next hnear =>
        exact ⟨fun h => (nomatch h), .click _ _ _ 0, _, j + 1, .consume ..,
          ⟨hsucc, a, j, ha, rfl, by omega, by omega, rfl, by decide⟩, by simp only [Detecting.left]; omega⟩
      · exact ⟨fun h => (nomatch h), _, _, j + 1, (Examined.mapDetector ..).kept (.presentClick ..),
          ⟨hsucc, by show j + 1 ≤ 4096; omega⟩, by simp only [Detector.consume, Detecting.left]; omega⟩
    · split
      · exact ⟨fun h => (nomatch h), _, _, j + 1, (Examined.mapDetector ..).kept (.presentClick ..),
          ⟨hsucc, by show j + 1 ≤ 4096; omega⟩, by simp only [Detector.consume, Detecting.left]; omega⟩
      · exact ⟨fun h => (nomatch h), .click _ _ _ (g + 1), _, j + 1, .consume ..,
          ⟨hsucc, a, c, ha, rfl, hac, hca, by omega, by omega⟩, by simp only [Detecting.left]; omega⟩

theorem examineVoid_stepsOn {start : Position} {length : Nat}
    (hat : DetectorAt first (.void start length) (s.engines.get l).detector.next j) :
    StepsOn l first s (.void start length) j (examineVoid l p start length s) := by
  obtain ⟨hnext, a, ha, hj, hlength⟩ := hat
  have hsucc : (s.engines.get l).detector.next + 1#40 = first + BitVec.ofNat 40 (j + 1) := by rw [hnext, ofNat_succ]
  unfold StepsOn examineVoid
  dsimp only
  split
  · split
    · exact ⟨fun h => (nomatch h), _, _, j + 1, (Examined.mapDetector ..).kept (.presentSpan ..),
        ⟨hsucc, by show j + 1 ≤ 4096; omega⟩, by simp only [Detector.consume, Detecting.left]; omega⟩
    · next hshort =>
      have hlt : ¬2048 ≤ length + 1 := hshort
      exact ⟨fun h => (nomatch h), .void start (length + 1), _, j + 1, .consume .., ⟨hsucc, a, ha, by omega, by omega⟩,
        by simp only [Detecting.left]; omega⟩
  · exact ⟨fun h => (nomatch h), _, _, j, (Examined.mapDetector ..).kept (.presentSpan ..),
      ⟨hnext, by show j ≤ 4096; omega⟩, by simp only [Detecting.left]; omega⟩

/-- One elementary step of detection ends it or brings it on. -/
theorem detectStep_stepsOn {b : Block} (hguard : p.guardLen ≤ 8) (hfirst : b.first = first) (hfill : b.fill ≤ 2048)
    (hat : DetectorAt first (s.engines.get l).detector.state (s.engines.get l).detector.next j) :
    detectStep l p b s = (s, .over) ∨ StepsOn l first s (s.engines.get l).detector.state j (detectStep l p b s) := by
  unfold detectStep
  dsimp only
  cases hstate : (s.engines.get l).detector.state with
  | idle =>
    rw [hstate] at hat
    dsimp only
    split
    · exact .inl rfl
    · next hin =>
      obtain ⟨hnext, hj⟩ := hat
      change j ≤ 4096 at hj
      have hdist : distance b.first (s.engines.get l).detector.next = j := by
        have h := distance_of_offsets first (a := 0) (j := j) (Nat.zero_le _) (by omega)
        rwa [← hnext, BitVec.add_zero, Nat.sub_zero, ← hfirst] at h
      rw [hdist] at hin
      exact .inr (examineIdle_stepsOn ⟨hnext, hj⟩ (by omega))
  | click n m peak g =>
    rw [hstate] at hat
    dsimp only
    split
    · obtain ⟨hnext, a, c, ha, -, hac, hca, hj, hg⟩ := hat
      exact .inr ⟨fun h => (nomatch h), _, _, j, (Examined.mapDetector ..).kept (.presentClick ..),
        ⟨hnext, by show j ≤ 4096; omega⟩, by simp only [Detecting.left]; omega⟩
    · exact .inr (examineClick_stepsOn hguard hat)
  | void start length =>
    rw [hstate] at hat
    dsimp only
    split
    · obtain ⟨hnext, a, ha, hj, hlength⟩ := hat
      exact .inr ⟨fun h => (nomatch h), _, _, j, (Examined.mapDetector ..).kept (.presentSpan ..),
        ⟨hnext, by show j ≤ 4096; omega⟩, by simp only [Detecting.left]; omega⟩
    · exact .inr (examineVoid_stepsOn hat)

end

/-- A live render of a block, before or after its detection, with the memory that it began with. -/
structure DetectAt (l : Lane) (b : Block) (s0 s : State) (f : Flight) : Prop where
  work   : workOf s l = .live b.number f
  memory : s.window.memory = s0.window.memory
  block  : ∃ c, blockNumbered s b.number = some c ∧ b.SameBut c l

theorem DetectAt.examined {l : Lane} {b : Block} {s0 s t : State} {f : Flight} {x : Detecting} {next : Position}
    (h : DetectAt l b s0 s f) (ht : Examined l s t x next) : DetectAt l b s0 t f := by
  obtain ⟨hw, hm, c, hc, hsame⟩ := h
  obtain ⟨hm', hw', -, -, g, hg, hsame'⟩ := ht
  refine ⟨hw'.trans hw, hm'.trans hm, g c, ?_, hsame.trans (hsame' c)⟩
  rw [blockNumbered_map hg (fun d => (hsame' d).number), hc]
  rfl

/-- Detection comes to the mend stage, in two steps at most for each position that it may examine. -/
theorem DetectAt.detects {l : Lane} {b : Block} {s0 : State} {f : Flight} (hstage : f.stage = .detect)
    (hguard : f.settings.guardLen ≤ 8) (hfill : b.fill ≤ 2048) (n : Nat) {s : State} (h : DetectAt l b s0 s f) {j : Nat}
    (hat : DetectorAt b.first (s.engines.get l).detector.state (s.engines.get l).detector.next j)
    (hleft : (s.engines.get l).detector.state.left j = n) :
    ∃ t m, m ≤ n + 1 ∧ Arrives l m s t ∧ DetectAt l b s0 t { f with stage := .mend 0 } := by
  induction n using Nat.strong_induction_on generalizing s j with
  | _ n ih =>
    subst hleft
    obtain ⟨hw, hm, c, hc, hsame⟩ := id h
    have hgoes : stageOf s l ≠ some .finished := by
      unfold stageOf
      rw [hw]
      dsimp only
      rw [hstage]
      exact fun hn => (nomatch hn)
    have hstep : workStep l s = (detectWork l c f s).1 := by
      unfold workStep renderStep
      rw [hw]
      dsimp only
      rw [hc, hstage]
    obtain hover | ⟨hseen, x, next, i, hexamined, hat', hless⟩ :=
      detectStep_stepsOn (b := c) hguard hsame.first (hsame.fill.le.trans hfill) hat
    · have hend : workStep l s = s.setWork l (.live b.number { f with stage := .mend 0 }) := by
        rw [hstep]
        unfold detectWork
        rw [hover]
        dsimp only
        unfold State.setFlight
        rw [hw]
      refine ⟨workStep l s, 1, Nat.le_add_left .., .of_step hgoes, ?_⟩
      rw [hend]
      exact ⟨congrArg LaneEngine.work (PerLane.get_set_self ..), hm, c, hc, hsame⟩
    · have hnext : workStep l s = (detectStep l f.settings c s).1 := by
        rw [hstep]
        unfold detectWork
        split
        · next heq => exact absurd (congrArg Prod.snd heq) hseen
        all_goals next heq => exact (congrArg Prod.fst heq).symm
      rw [← hnext] at hexamined
      have hstate := hexamined.state
      have hpos := hexamined.next
      obtain ⟨t, m, hle, harrives, ht⟩ := ih (x.left i) hless (h.examined hexamined) (j := i)
        (by rw [hstate, hpos]; exact hat') (by rw [hstate])
      exact ⟨t, 1 + m, by omega, (Arrives.of_step hgoes).trans harrives, ht⟩

/-! ## The whole render -/

/-- A block taken for a live render: its record WORKING and clean, and the detector where it was. -/
theorem takeLive_detectAt {s : State} {l : Lane} {b : Block} {r : LaneRecord} (hb : blockNumbered s b.number = some b)
    (hr : b.lanes.get l = some r) :
    ∃ c x, (c.slot = b.slot ∧ c.number = b.number ∧ c.first = b.first ∧ c.fill = b.fill) ∧ c.lanes.get l = some x ∧ Clean x ∧
      DetectAt l c s (settle (takeLive l b s)) (Flight.begin (s.engines.get l).settings .detect) ∧
      ((settle (takeLive l b s)).engines.get l).detector = (s.engines.get l).detector := by
  let taken : LaneRecord → LaneRecord := fun r =>
    { r with
      render := .working, dirty := false
      learnFlag := r.learnFlag || decide ((s.engines.get l).learn.state = .active) }
  have htaken : (b.mapRecord l taken).lanes.get l = some (taken r) := by
    unfold Block.mapRecord
    rw [PerLane.get_set_self, hr]
    rfl
  have hblock : blockNumbered (takeLive l b s) b.number = some (b.mapRecord l taken) := by
    rw [takeLive_eq, blockNumbered_map (s := s) rfl (fun c => ?_), hb, Option.map_some, if_pos rfl]
    split <;> rfl
  have hwork : workOf (takeLive l b s) l = .live b.number (Flight.begin (s.engines.get l).settings .detect) := by
    rw [takeLive_eq]
    exact congrArg LaneEngine.work (PerLane.get_set_self ..)
  have hdetector : ((takeLive l b s).engines.get l).detector = (s.engines.get l).detector := by
    rw [takeLive_eq]
    dsimp only
    rw [PerLane.get_set_self]
  have hmemory : (takeLive l b s).window.memory = s.window.memory := by rw [takeLive_eq]
  exact ⟨b.mapRecord l taken, taken r, ⟨rfl, rfl, rfl, rfl⟩, htaken, ⟨rfl, rfl⟩, ⟨hwork, hmemory, _, hblock, .refl _ l⟩,
    hdetector⟩

/-- Settles O48: the bounds of the three stages add up to less than the fuel of a completion. -/
theorem reRenderRunsToItsEnd : Obligations.ReRenderRunsToItsEnd := by
  refine ⟨fun s l k f b hwork hstage hb hlane hfill hm => ?_, fun s l b i hlegal hm hidle hstale hlowest hfull hpred hsucc
    hguard hdetector hnext hi => ?_⟩
  · have hstart : RenderAt false l k b s s f := ⟨hwork, rfl, hm, fun _ _ => rfl⟩
    obtain ⟨t, g, ht, hg, hrestored, harrives⟩ := hstart.finishes hb hfill hstage hlane
    have hfinished : stageOf t l = some .finished := by
      have hw : workOf t l = .reRender k g := ht.work
      unfold stageOf
      rw [hw, ← hg]
    have hadvance := harrives.advance_fuel (show 2 * b.fill + 2 ≤ 16384 by omega) hfinished
    obtain ⟨hnone, hmemory, hbelow, F, hF, hlanes⟩ := completion_of_arrives hb ht hg hrestored
    refine ⟨_, ?_, hnone, fun c hc hn => ?_, hbelow, fun y hy => ?_⟩
    · change completed (match workOf s l, Progress.rest with
        | .reRender _ _, .part n => advance l n s
        | .reRender _ _, .rest => finishReRender l (advance l workFuel s)
        | .none, _ => s
        | .live _ _, _ => s) = _
      rw [hwork, hadvance]
      rfl
    · rw [hF] at hc
      obtain ⟨d, hd, rfl⟩ := List.mem_map.1 hc
      obtain ⟨hnum, hrender⟩ := hlanes d
      rw [hrender (hnum.symm.trans hn)]
      cases d.lanes.get l with
      | none => exact fun h => (nomatch h)
      | some r =>
        rw [Option.map_some]
        split <;> exact fun h => (nomatch h)
    · rw [hmemory]
      exact ht.cells y hy
  · obtain ⟨hmem, hpending⟩ : b ∈ s.window.blocks ∧ b.renderOf l = some .pending :=
      ⟨List.mem_of_find?_eq_some hlowest, beq_iff_eq.1 (List.find?_some hlowest :)⟩
    obtain ⟨r, hr, -⟩ := Option.map_eq_some_iff.1 hpending
    have hchoice : liveChoice s l = some b := liveChoice_eq_some.2 ⟨hidle, hstale, hlowest, hfull, hpred, hsucc⟩
    have htake : exec (.liveRenderTake l) s = completed (takeLive l b s) := by
      change completed (match liveChoice s l with
        | some b => takeLive l b s
        | none => s) = _
      rw [hchoice]
    obtain ⟨c, x, ⟨hslot, hnumber, hfirst, hcfill⟩, hx, hclean, hat, hsame⟩ :=
      takeLive_detectAt (blockNumbered_of_mem hlegal hmem) hr
    have hfill := hlegal.fill_le hmem
    unfold completed at htake
    generalize settle (takeLive l b s) = u at *
    have hstart : DetectorAt c.first (u.engines.get l).detector.state (u.engines.get l).detector.next i := by
      rw [hsame, hdetector, hnext, hfirst]
      exact ⟨rfl, hi⟩
    obtain ⟨t, m, hm1, harrives, ht⟩ :=
      hat.detects rfl hguard (hcfill.le.trans hfill) _ hstart rfl
    have hleft : (u.engines.get l).detector.state.left i ≤ 8194 := by
      rw [hsame, hdetector, Detecting.left]
      omega
    obtain ⟨hwork, hmemory, d, hd, hcd⟩ := ht
    obtain ⟨y, hy, hyclean⟩ := hcd.lane x hx hclean
    have hdfill : d.fill = b.fill := hcd.fill.trans hcfill
    have hrender : RenderAt true l c.number d t t { Flight.begin (s.engines.get l).settings .detect with stage := .mend 0 } :=
      ⟨hwork, rfl, hmemory ▸ hm, fun _ _ => rfl⟩
    obtain ⟨v, g, hv, hg, hrestored, harrives'⟩ :=
      hrender.finishes hd (hdfill.le.trans hfill) rfl (Option.isSome_iff_exists.2 ⟨y, hy⟩)
    have hfinished : stageOf v l = some .finished := by
      have hw : workOf v l = .live c.number g := hv.work
      unfold stageOf
      rw [hw, ← hg]
    have hadvance := (harrives.trans harrives').advance_fuel (show m + (2 * d.fill + 2) ≤ 16384 by omega) hfinished
    obtain ⟨hnone, hkept, hbelow, F, hF, hlanes⟩ := completion_of_arrives hd hv hg hrestored
    obtain ⟨hdmem, hdnum⟩ := mem_of_blockNumbered hd
    refine ⟨u, _, htake, ?_, hnone, ⟨F d, ?_, ?_, ?_⟩, fun o ho => ?_, fun a ha => ?_⟩
    · change completed (match workOf u l, Progress.rest with
        | .live _ _, .part n => advance l n u
        | .live _ _, .rest => finishLive l (advance l workFuel u)
        | .none, _ => u
        | .reRender _ _, _ => u) = _
      rw [hat.work, hadvance]
      rfl
    · rw [hF]
      exact List.mem_map_of_mem hdmem
    · rw [(hlanes d).1, hdnum, hnumber]
    · rw [(hlanes d).2 hdnum, hy, Option.map_some, hyclean.2]
      rfl
    · have hd' := hbelow o (hdfill ▸ ho)
      unfold readSample at hd' ⊢
      rwa [hcd.slot, hslot] at hd'
    · rw [hkept, hv.cells a (fun o ho => ?_), hmemory]
      rw [hcd.slot, hslot]
      exact ha o (hdfill ▸ ho)

end Sys2Proof.Machine
end

section
/-! A packet whose count is 2^40, the number of positions there are: once its last position is assembled the distance from
its first position is 0 again, and unpacking goes on where the statements have it end (O37, O25). -/

namespace Sys2Proof.Machine

/-! ## The packet -/

/-- A packet of 2^40 positions on one lane of which only the one at `next` is lacking. No header opens such a packet, whose
count is 1024 at most (R5); the statements leave the count open. -/
def endless (next : Position) (bits : List Bool) : PacketContext :=
  { first := next + 1#40, count := 2 ^ 40, wordsNeeded := 1, wordsReceived := 0, partialBits := bits, lanesWritten := 0 }

/-- Block k in slot k, with its one lane. -/
def laneBlock (k fill : Nat) (x : BlockState) : Block :=
  { slot := k, number := k, first := BitVec.ofNat 40 (2048 * k), fill := fill, state := x
    filmGap := false, filmSlip := false, filmLink := false, start := ⟨.unlocked, none⟩, events := []
    lanes := ⟨some LaneRecord.fresh, none, none, none⟩ }

/-- A running pass on lane 0 in width 16, with that packet OPEN. -/
def endlessPacket (bs : List Block) (next : Position) (bits : List Bool) : State :=
  { State.reset with
    pass := { PassControl.reset with state := .running, laneMask := 1#4, width := .w16 }
    scan := { ScanInput.reset with next := next, packet := .opened, context := some (endless next bits) }
    window := { Window.reset with blocks := bs, counter := bs.length } }

/-! ## A word taken -/

/-- A word of two samples to be taken, block 0 FILLING. -/
def endlessWord : State :=
  let s := endlessPacket [laneBlock 0 1 .filling] 1#40 []
  s.setScan { s.scan with fifo := [⟨.data, 0#32, false⟩] }

/-- Both samples are written, and two positions counted. -/
theorem exec_endlessWord : ∃ t, exec .dataTaken endlessWord = .next t ∧ t.scan.next = 3#40 := ⟨_, rfl, by decide⟩

/-- Refutes O37: its premises leave the count of the packet open. One position is lacking and the word holds two samples; the
statement has the second dropped as padding, and the model writes it. -/
theorem not_dataWordBecomesTwoSamples : ¬ Obligations.DataWordBecomesTwoSamples := by
  intro h
  obtain ⟨t, ht, hnext⟩ := exec_endlessWord
  obtain ⟨hready, -⟩ := h endlessWord ⟨.data, 0#32, false⟩ [] (endless 1#40 []) (by decide) rfl rfl (by decide) rfl (by decide)
    (by decide) (by decide) (by decide) (by decide) (by decide) (by decide) (by decide)
  obtain ⟨hblock, -⟩ := hready endlessWord (laneBlock 0 1 .filling) (.inl ⟨by decide, rfl⟩)
  obtain ⟨t', ht', hscan, -⟩ := hblock (by decide) (fun hlock => absurd hlock (by decide))
  obtain rfl : t = t' := Host.Outcome.next.inj (ht.symm.trans ht')
  rw [hscan] at hnext
  exact absurd (show (2#40 : Position) = 3#40 from hnext) (by decide)

/-! ## A word resumed -/

/-- The word that the stall of a full window has kept from the start, the last bit of a sample its next. -/
def endlessStall : State :=
  let s := endlessPacket
    (laneBlock 0 2048 .released :: (List.range 63).map (fun k => laneBlock (k + 1) 2048 .full)) 131072#40
    (List.replicate 15 true)
  s.setScan { s.scan with stall := ⟨true, true⟩, suspended := some ⟨⟨.data, 0#32, false⟩, 0⟩ }

/-- The freed slot takes the two samples that the bits complete, and two positions are counted. -/
theorem exec_endlessStall :
    ∃ t, exec (.dack .port0 (.whole 0#32 0)) endlessStall = .next t ∧ t.scan.next = 131074#40 :=
  ⟨_, rfl, by decide +kernel⟩

/-- The window of the stall is legal and holds every slot. -/
theorem endlessStall_window : WindowLegal endlessStall ∧ NoneFree endlessStall :=
  ⟨by decide +kernel, (by decide +kernel : ∀ j, j < 64 → ∃ b ∈ endlessStall.window.blocks, b.slot = j)⟩

/-- Refutes O25: its premises leave the count of the packet open. One position is lacking and the bits left complete two
samples; the statement has the second dropped as padding, and the model writes it. -/
theorem not_dackFreesTheHead : ¬ Obligations.DackFreesTheHead := by
  intro h
  obtain ⟨t, ht, hnext⟩ := exec_endlessStall
  obtain ⟨-, hstall, -⟩ := h endlessStall .port0 0#32 0 (by decide) rfl
  obtain ⟨hw, hfree⟩ := endlessStall_window
  obtain ⟨-, -, -, hword⟩ := hstall (laneBlock 0 2048 .released) ⟨.data, 0#32, false⟩ 0 (by decide +kernel) rfl hw (.inl rfl) rfl
    rfl rfl rfl (by decide +kernel) (by decide +kernel) hfree
  obtain ⟨t', -, hexec, -, -, -, -, -, hscan⟩ := hword (endless 131072#40 (List.replicate 15 true)) rfl rfl rfl (by decide)
    (by decide) (by decide) (by decide) (by decide +kernel) (by decide) (fun hlock => absurd hlock (by decide))
  obtain rfl : t = t' := Host.Outcome.next.inj (ht.symm.trans hexec)
  rw [hscan] at hnext
  exact absurd hnext (by decide +kernel)

end Sys2Proof.Machine
end

section
/-! Void positions: the FILLING block that a fill writes into, one position of it, a run of them within a block, and the run
that goes over into a block secured or stalls for want of a slot (O34, O40). -/

namespace Sys2Proof.Machine

/-! ## The block that is being filled -/

/-- Block b is the FILLING block of the part, the next position stands at its fill count, and the block that the counter
numbers follows it. -/
structure Fills (u : State) (b : Block) : Prop where
  mem : b ∈ u.window.blocks
  state : b.state = .filling
  alone : ∀ c ∈ u.window.blocks, c.state = .filling → c.number = b.number
  named : ∀ c ∈ u.window.blocks, c.number = b.number → c = b
  older : ∀ c ∈ u.window.blocks, c.number < u.window.counter
  room : b.fill < 2048
  next : u.scan.next = b.first + BitVec.ofNat 40 b.fill
  follows : firstPositionOf u u.window.counter = b.first + 2048#40

theorem Fills.filling {u : State} {b : Block} (h : Fills u b) : fillingBlock u = some b := by
  obtain ⟨c, hc⟩ := Option.isSome_iff_exists.1 (fillingBlock_isSome_iff.2 ⟨b, h.mem, h.state⟩)
  obtain ⟨hmem, hstate⟩ := mem_of_fillingBlock hc
  rw [hc, h.named c hmem (h.alone c hmem hstate)]

theorem Fills.filling_iff {u : State} {b c : Block} (h : Fills u b) (hc : c ∈ u.window.blocks) :
    c.state = .filling ↔ c.number = b.number :=
  ⟨h.alone c hc, fun hn => (h.named c hc hn).symm ▸ h.state⟩

theorem Fills.secures {u : State} {b : Block} (h : Fills u b) : secure u = .done u := secure_ready (.inl ⟨h.filling, rfl⟩)

theorem Fills.congr {u v : State} {b : Block} (h : Fills u b) (hblocks : v.window.blocks = u.window.blocks)
    (hcounter : v.window.counter = u.window.counter) (hpass : v.pass = u.pass) (hnext : v.scan.next = u.scan.next) :
    Fills v b where
  mem := hblocks ▸ h.mem
  state := h.state
  alone := hblocks ▸ h.alone
  named := hblocks ▸ h.named
  older := by rw [hblocks, hcounter]; exact h.older
  room := h.room
  next := hnext ▸ h.next
  follows := by rw [firstPositionOf, hpass, hcounter]; exact h.follows

theorem Fills.offsetIn {u : State} {b : Block} (h : Fills u b) : offsetIn b u.scan.next = b.fill := by
  have hroom := h.room
  rw [Machine.offsetIn, h.next, add_sub_cancel_left, BitVec.toNat_ofNat, Nat.mod_eq_of_lt (by omega)]

/-- The FILLING block of a legal window whose next position stands as the law has it. -/
theorem WindowLegal.fills {s : State} {b : Block} (hw : WindowLegal s) (hlaw : NextPositionLaw s)
    (hstate : s.pass.state = .running ∨ s.pass.state = .closing) (hrun : s.pass.runOutEnded = false)
    (hb : fillingBlock s = some b) : Fills s b := by
  obtain ⟨hmem, hfilling⟩ := mem_of_fillingBlock hb
  obtain ⟨older, hsplit, -⟩ := hw.filling_newest hb
  have hblock := hw.1
  have hlast := hw.2.2.2.2.2.2.2.2
  obtain ⟨-, -, hfirst, hfill, -⟩ := hblock b hmem
  have hnumber : b.number + 1 = s.window.counter := hlast hrun b (by rw [hsplit, List.getLast?_concat]; rfl)
  rw [Block.fillLegal, if_pos hfilling] at hfill
  refine ⟨hmem, hfilling, fun c hc hcs => ?_, fun c hc hn => hw.eq_of_number hc hmem hn, fun c hc => (hblock c hc).2.1, hfill,
    (hlaw hstate hrun).1 b hb, ?_⟩
  · rw [hw.only_filling hb hc (.inl hcs)]
  · rw [hfirst, firstPositionOf, firstPositionOf, ← hnumber, add_assoc, show (2048#40) = BitVec.ofNat 40 2048 from rfl,
      ← BitVec.ofNat_add, Nat.mul_succ]
    rfl

/-- A block secured in a part none of whose blocks is FILLING. -/
theorem fills_slotTaken {s : State} (slot : Nat) (hnone : fillingBlock s = none)
    (holder : ∀ c ∈ s.window.blocks, c.number < s.window.counter)
    (hnext : s.scan.next = firstPositionOf s s.window.counter) : Fills (s.slotTaken slot) (newBlock s slot) := by
  have hmem : ∀ c, c ∈ (s.slotTaken slot).window.blocks ↔ c ∈ s.window.blocks ∨ c = newBlock s slot := fun c => by
    change c ∈ s.window.blocks ++ [newBlock s slot] ↔ _
    rw [List.mem_append, List.mem_singleton]
  refine ⟨(hmem _).2 (.inr rfl), rfl, fun c hc hcs => ?_, fun c hc hn => ?_, fun c hc => ?_, (by decide : 0 < 2048), ?_, ?_⟩
  · obtain hc | rfl := (hmem c).1 hc
    · exact absurd hcs (fillingBlock_eq_none.1 hnone c hc)
    · rfl
  · obtain hc | rfl := (hmem c).1 hc
    · exact absurd hn (Nat.ne_of_lt (holder c hc))
    · rfl
  · obtain hc | rfl := (hmem c).1 hc
    · exact Nat.lt_succ_of_lt (holder c hc)
    · exact Nat.lt_succ_self _
  · exact hnext.trans (BitVec.add_zero _).symm
  · change s.pass.start + BitVec.ofNat 40 (2048 * (s.window.counter + 1)) = s.pass.start + BitVec.ofNat 40 (2048 * s.window.counter) + 2048#40
    rw [add_assoc, show (2048#40) = BitVec.ofNat 40 2048 from rfl, ← BitVec.ofNat_add, Nat.mul_succ]

/-- The block made ready, from a legal window. -/
theorem BlockReady.fills {s u : State} {b : Block} (h : BlockReady s u b) (hw : WindowLegal s) (hlaw : NextPositionLaw s)
    (hstate : s.pass.state = .running ∨ s.pass.state = .closing) (hrun : s.pass.runOutEnded = false) : Fills u b := by
  obtain ⟨hb, rfl⟩ | ⟨slot, hnone, -, -, rfl, rfl⟩ := h
  · exact hw.fills hlaw hstate hrun hb
  · exact fills_slotTaken slot hnone (fun c hc => (hw.1 c hc).2.1) ((hlaw hstate hrun).2 hnone)

theorem freeSlot_congr {u v : State} (h : v.window.blocks.map Block.slot = u.window.blocks.map Block.slot) :
    freeSlot v = freeSlot u := by
  have hslots : ∀ t : State, freeSlot t =
      (List.range Config.slotCount).find? (fun i => (t.window.blocks.map Block.slot).all (fun j => j != i)) := fun t => by
    rw [freeSlot]
    simp only [List.all_map, Function.comp_def]
  rw [hslots, hslots, h]

theorem LowestFree.congr {u v : State} {slot : Nat} (hfree : LowestFree u slot)
    (h : v.window.blocks.map Block.slot = u.window.blocks.map Block.slot) : LowestFree v slot :=
  lowestFree_iff.2 ((freeSlot_congr h).trans (lowestFree_iff.1 hfree))

theorem NoneFree.congr {u v : State} (hfree : NoneFree u) (h : v.window.blocks.map Block.slot = u.window.blocks.map Block.slot) :
    NoneFree v :=
  noneFree_iff.2 ((freeSlot_congr h).trans (noneFree_iff.1 hfree))

theorem newBlock_congr {u v : State} (slot : Nat) (hpass : v.pass = u.pass) (htracker : v.tracker = u.tracker)
    (hcounter : v.window.counter = u.window.counter) : newBlock v slot = newBlock u slot := by
  unfold newBlock
  rw [hpass, htracker, hcounter]

/-! ## Cells that become void -/

/-- The void value written into cells, one after the other. -/
def voided (m : WindowMemory) (cells : List Nat) : WindowMemory :=
  cells.foldl (fun m a => writeCell m a Config.voidValue) m

theorem readCell_voided {m : WindowMemory} (hm : Memory.wf m) (cells : List Nat) (y : Nat) :
    readCell (voided m cells) y = if y ∈ cells then Config.voidValue else readCell m y := by
  induction cells generalizing m with
  | nil => rw [if_neg (List.not_mem_nil)]; rfl
  | cons a cells ih =>
    refine (ih (writeCell_wf hm a _)).trans ?_
    by_cases hmem : y ∈ cells
    · rw [if_pos hmem, if_pos (List.mem_cons_of_mem _ hmem)]
    · by_cases hy : y = a
      · rw [if_neg hmem, if_pos (hy ▸ List.mem_cons_self ..), hy, readCell_writeCell_self hm]
      · rw [if_neg hmem, if_neg (fun h => (List.mem_cons.1 h).elim hy hmem), readCell_writeCell_other _ hy]

/-- The cells of n positions from the fill count of a block on, over the end of the block into the slot `second`; the first
position keeps its first `skip` lanes. -/
def voidCells (lanes : List Lane) (b : Block) (second n skip : Nat) : List Nat :=
  (List.range n).flatMap (fun i => (lanes.drop (if i = 0 then skip else 0)).map (cellFrom b second (b.fill + i)))

theorem voidCells_one (lanes : List Lane) (b : Block) (second skip : Nat) :
    voidCells lanes b second 1 skip = (lanes.drop skip).map (cellFrom b second b.fill) := by
  simp [voidCells]

/-- The positions of a run after its first ones are a run of their own, with every lane. -/
theorem voidCells_add (lanes : List Lane) {b c : Block} {second second' m : Nat} (k skip : Nat) (hm : 1 ≤ m)
    (hcell : ∀ i, i < k → ∀ l, cellFrom c second' (c.fill + i) l = cellFrom b second (b.fill + (m + i)) l) :
    voidCells lanes b second (m + k) skip = voidCells lanes b second m skip ++ voidCells lanes c second' k 0 := by
  unfold voidCells
  rw [List.range_add, List.flatMap_append, List.flatMap_map]
  refine congrArg _ (List.flatMap_congr (fun i hi => ?_))
  rw [if_neg (by omega), ite_self]
  exact List.map_congr_left (fun l _ => (hcell i (List.mem_range.1 hi) l).symm)

theorem mem_voidCells {lanes : List Lane} {b : Block} {second n skip y : Nat} :
    y ∈ voidCells lanes b second n skip ↔
      ∃ j l i, (lanes[j]? = some l ∧ i < n ∧ (i = 0 → skip ≤ j)) ∧ y = cellFrom b second (b.fill + i) l := by
  have hlane : ∀ i l, l ∈ lanes.drop (if i = 0 then skip else 0) ↔ ∃ j, lanes[j]? = some l ∧ (i = 0 → skip ≤ j) := by
    intro i l
    rw [List.mem_iff_getElem?]
    simp only [List.getElem?_drop]
    constructor
    · rintro ⟨j, hj⟩
      exact ⟨_, hj, fun hi => by rw [if_pos hi]; exact Nat.le_add_right ..⟩
    · rintro ⟨j, hj, hskip⟩
      refine ⟨j - (if i = 0 then skip else 0), ?_⟩
      rwa [Nat.add_sub_cancel' (by split <;> simp_all)]
  simp only [voidCells, List.mem_flatMap, List.mem_range, List.mem_map, hlane]
  constructor
  · rintro ⟨i, hi, l, ⟨j, hj, hskip⟩, rfl⟩
    exact ⟨j, l, i, ⟨hj, hi, hskip⟩, rfl⟩
  · rintro ⟨j, l, i, ⟨hj, hi, hskip⟩, rfl⟩
    exact ⟨i, hi, l, ⟨j, hj, hskip⟩, rfl⟩

/-- Void positions in the words of the statements. -/
theorem voidsWritten_of {s t : State} {b : Block} {second n skip : Nat} (hm : Memory.wf s.window.memory)
    (h : t.window.memory = voided s.window.memory (voidCells (activeLanes s) b second n skip)) :
    VoidsWritten s t b second n skip := by
  have hread := fun y => readCell_voided hm (voidCells (activeLanes s) b second n skip) y
  rw [← h] at hread
  refine ⟨fun j l i hwritten => ?_, fun y hother => ?_⟩
  · exact (hread _).trans (if_pos (mem_voidCells.2 ⟨j, l, i, hwritten, rfl⟩))
  · refine (hread y).trans (if_neg (fun hmem => ?_))
    obtain ⟨j, l, i, hwritten, hy⟩ := mem_voidCells.1 hmem
    exact hother j l i hwritten hy

/-! ## Positions written into the FILLING block -/

/-- The part with the block of a number changed, other memory and another Scan Input. -/
def State.poured (u : State) (b : Block) (g : Block → Block) (m : WindowMemory) (x : ScanInput) : State :=
  { u with
    scan := x
    window :=
      { u.window with memory := m, blocks := u.window.blocks.map (fun y => if y.number = b.number then g y else y) } }

/-- Two changes of one block come to one. -/
theorem poured_poured {u : State} {b c : Block} {g g' : Block → Block} (hc : c.number = b.number)
    (hg : ∀ y, (g y).number = y.number) (m m' : WindowMemory) (x x' : ScanInput) :
    (u.poured b g m x).poured c g' m' x' = u.poured b (fun y => g' (g y)) m' x' := by
  have hblocks : (u.window.blocks.map (fun y => if y.number = b.number then g y else y)).map
      (fun y => if y.number = c.number then g' y else y) =
        u.window.blocks.map (fun y => if y.number = b.number then g' (g y) else y) := by
    rw [List.map_map]
    refine List.map_congr_left (fun y _ => ?_)
    by_cases hy : y.number = b.number
    · simp only [Function.comp_apply, hc, if_pos hy, if_pos ((hg y).trans hy)]
    · simp only [Function.comp_apply, hc, if_neg hy]
  exact congrArg (fun bs => ({ u with scan := x', window := { u.window with memory := m', blocks := bs } } : State)) hblocks

/-- A block changed and still FILLING is still the one that is being filled. -/
theorem Fills.poured {u : State} {b : Block} (h : Fills u b) {g : Block → Block} {n : Nat} (m : WindowMemory) {x : ScanInput}
    (hnumber : ∀ y, (g y).number = y.number) (hfirst : (g b).first = b.first) (hstate : (g b).state = .filling)
    (hfill : (g b).fill = b.fill + n) (hroom : b.fill + n < 2048) (hnext : x.next = u.scan.next + BitVec.ofNat 40 n) :
    Fills (u.poured b g m x) (g b) := by
  have hmem : ∀ c ∈ (u.poured b g m x).window.blocks, c = g b ∨ (c ∈ u.window.blocks ∧ c.number ≠ b.number) := by
    intro c hc
    obtain ⟨y, hy, rfl⟩ := List.mem_map.1 hc
    split
    · next hn => exact .inl (h.named y hy hn ▸ rfl)
    · next hn => exact .inr ⟨hy, hn⟩
  refine ⟨List.mem_map.2 ⟨b, h.mem, if_pos rfl⟩, hstate, fun c hc hcs => ?_, fun c hc hn => ?_, fun c hc => ?_,
    hfill ▸ hroom, ?_, ?_⟩
  · obtain rfl | ⟨hc, hne⟩ := hmem c hc
    · rfl
    · exact absurd (h.alone c hc hcs) hne
  · obtain rfl | ⟨hc, hne⟩ := hmem c hc
    · rfl
    · exact absurd (hn.trans (hnumber b)) hne
  · obtain rfl | ⟨hc, -⟩ := hmem c hc
    · exact (hnumber b).symm ▸ h.older b h.mem
    · exact h.older c hc
  · change x.next = _
    rw [hnext, h.next, hfirst, hfill, add_assoc, ← BitVec.ofNat_add]
  · exact h.follows.trans (by rw [hfirst])

/-- A block changed and no longer FILLING leaves none FILLING. -/
theorem Fills.poured_none {u : State} {b : Block} (h : Fills u b) {g : Block → Block} (m : WindowMemory) (x : ScanInput)
    (hstate : (g b).state ≠ .filling) : fillingBlock (u.poured b g m x) = none := by
  refine fillingBlock_eq_none.2 (fun c hc => ?_)
  obtain ⟨y, hy, rfl⟩ := List.mem_map.1 hc
  split
  · next hn => rw [h.named y hy hn]; exact hstate
  · next hn => exact fun hcs => hn (h.alone y hy hcs)

/-! ## One position -/

/-- The void values of a run of lanes at the next position. -/
theorem Fills.foldl_writeOriginal {u : State} {b : Block} (h : Fills u b) (second : Nat) (ls : List Lane) :
    ls.foldl (fun t l => writeOriginal l Config.voidValue t) u =
      u.setMemory (voided u.window.memory (ls.map (cellFrom b second b.fill))) := by
  induction ls generalizing u with
  | nil => rfl
  | cons l ls ih =>
    have hwrite : writeOriginal l Config.voidValue u =
        u.setMemory (writeCell u.window.memory (cellFrom b second b.fill l) Config.voidValue) := by
      rw [writeOriginal, h.filling, cellFrom, if_pos h.room]
      dsimp only
      rw [writeSample, h.offsetIn]
    rw [List.foldl_cons, hwrite]
    exact ih (h.congr rfl rfl rfl rfl)

/-- How many lanes of the next position the packet has written. -/
def State.lanesDone (u : State) : Nat := (u.scan.context.map (fun c => c.lanesWritten)).getD 0

/-- Scan Input once n more void positions are written, with so many pending. -/
def ScanInput.poured (x : ScanInput) (n pending : Nat) : ScanInput :=
  { x with
    next := x.next + BitVec.ofNat 40 n, context := x.context.map (fun c => { c with lanesWritten := 0 }), pendingFill := pending }

theorem timesOut_of_noTimeout {u v : State} {n : Nat} (h : NoTimeout u (n + 1)) (htracker : v.tracker = u.tracker)
    (hpass : v.pass = u.pass) : timesOut v (u.scan.next + BitVec.ofNat 40 n) = false := by
  refine Bool.eq_false_iff.2 (fun hout => ?_)
  obtain ⟨r, hr, hlock, hfar⟩ := timesOut_iff.1 hout
  rw [htracker] at hr hlock
  rw [hpass] at hfar
  exact absurd (h hlock r hr n (Nat.lt_succ_self n)) (Int.not_le.2 hfar)

/-- One void position written, counted and reported. -/
theorem Fills.pour_one {u : State} {b : Block} (h : Fills u b) (f : FilmFlag) (second k : Nat) (hquiet : NoTimeout u 1) :
    (clearLanesWritten (countPosition (flagFilling f (writeVoids u)))).setFill k =
      u.poured b (fun y => (y.grown 1).setFilm f)
        (voided u.window.memory (voidCells (activeLanes u) b second 1 u.lanesDone)) (u.scan.poured 1 k) := by
  have hvoids : writeVoids u =
      u.setMemory (voided u.window.memory (voidCells (activeLanes u) b second 1 u.lanesDone)) := by
    rw [voidCells_one]
    exact h.foldl_writeOriginal second _
  rw [hvoids]
  generalize voided u.window.memory (voidCells (activeLanes u) b second 1 u.lanesDone) = m
  have hcount : countPosition (flagFilling f (u.setMemory m)) = advancePosition (flagFilling f (u.setMemory m)) := by
    have hno := timesOut_of_noTimeout (v := advancePosition (flagFilling f (u.setMemory m))) hquiet rfl rfl
    rw [show u.scan.next + BitVec.ofNat 40 0 = u.scan.next from BitVec.add_zero _] at hno
    rw [countPosition_eq, trackerReport, if_neg]
    exact fun hout => absurd (hno.symm.trans hout) (by decide)
  rw [hcount]
  have hblocks : (advancePosition (flagFilling f (u.setMemory m))).window.blocks =
      u.window.blocks.map (fun y => if y.number = b.number then (y.grown 1).setFilm f else y) := by
    refine (List.map_map ..).trans (List.map_congr_left (fun y hy => ?_))
    by_cases hn : y.number = b.number
    · have hy' := (h.filling_iff hy).2 hn
      rw [Function.comp_apply, if_pos hy', if_pos hn]
      cases f <;> exact if_pos hy'
    · have hy' := mt (h.filling_iff hy).1 hn
      rw [Function.comp_apply, if_neg hy', if_neg hn, if_neg hy']
  exact congrArg (fun bs => ({ u with scan := u.scan.poured 1 k, window := { u.window with memory := m, blocks := bs } } : State))
    hblocks

/-! ## A run of positions -/

theorem ScanInput.poured_poured (x : ScanInput) (m n j k : Nat) : (x.poured m j).poured n k = x.poured (m + n) k := by
  unfold ScanInput.poured
  rw [add_assoc, ← BitVec.ofNat_add, Option.map_map]
  rfl

/-- The positions after the first m of a run that times nothing out. -/
theorem NoTimeout.later {u v : State} {m k : Nat} (h : NoTimeout u (m + k)) (hpoint : v.tracker.point = u.tracker.point)
    (hmark : v.tracker.lastMark = u.tracker.lastMark) (hslip : v.tracker.slipPosition = u.tracker.slipPosition)
    (hpass : v.pass = u.pass) (hnext : v.scan.next = u.scan.next + BitVec.ofNat 40 m) : NoTimeout v k := by
  intro hlock r hr i hi
  rw [hmark, hslip] at hr
  rw [hnext, hpass, add_assoc, ← BitVec.ofNat_add]
  exact h (hpoint ▸ hlock) r hr (m + i) (by omega)

/-- The positions before. -/
theorem NoTimeout.first {u : State} {m n : Nat} (h : NoTimeout u n) (hm : m ≤ n) : NoTimeout u m :=
  fun hlock r hr i hi => h hlock r hr i (Nat.lt_of_lt_of_le hi hm)

/-- A block with n void positions more, flagged. -/
def Block.poured (f : FilmFlag) (n : Nat) (b : Block) : Block := (b.grown n).setFilm f

theorem Block.poured_frame (f : FilmFlag) (n : Nat) (b : Block) :
    (b.poured f n).slot = b.slot ∧ (b.poured f n).number = b.number ∧ (b.poured f n).first = b.first ∧
      (b.poured f n).fill = b.fill + n ∧ (b.poured f n).state = if b.fill + n = 2048 then .full else .filling := by
  cases f <;> exact ⟨rfl, rfl, rfl, rfl, rfl⟩

theorem Block.poured_poured (f : FilmFlag) (m n : Nat) (b : Block) : (b.poured f m).poured f n = b.poured f (m + n) := by
  cases f <;> simp only [Block.poured, Block.setFilm, Block.grown, Nat.add_assoc]

/-- The part with n void positions more in its FILLING block, and so many pending. -/
def State.voidsPoured (u : State) (b : Block) (second : Nat) (f : FilmFlag) (n pending : Nat) : State :=
  u.poured b (Block.poured f n) (voided u.window.memory (voidCells (activeLanes u) b second n u.lanesDone))
    (u.scan.poured n pending)

theorem Fills.voidsPoured {u : State} {b : Block} (h : Fills u b) (second : Nat) (f : FilmFlag) {n : Nat} (k : Nat)
    (hroom : b.fill + n < 2048) : Fills (u.voidsPoured b second f n k) (b.poured f n) := by
  obtain ⟨-, -, hfirst, hfill, hstate⟩ := b.poured_frame f n
  exact h.poured _ (fun y => (y.poured_frame f n).2.1) hfirst (hstate.trans (if_neg (Nat.ne_of_lt hroom))) hfill hroom rfl

theorem lanesDone_voidsPoured (u : State) (b : Block) (second : Nat) (f : FilmFlag) (n k : Nat) :
    (u.voidsPoured b second f n k).lanesDone = 0 := by
  change ((u.scan.context.map _).map _).getD 0 = 0
  cases u.scan.context <;> rfl

theorem slots_voidsPoured (u : State) (b : Block) (second : Nat) (f : FilmFlag) (n k : Nat) :
    (u.voidsPoured b second f n k).window.blocks.map Block.slot = u.window.blocks.map Block.slot := by
  refine (List.map_map ..).trans (List.map_congr_left (fun y _ => ?_))
  rw [Function.comp_apply, apply_ite Block.slot, (y.poured_frame f n).1, ite_self]

/-- Two runs of void positions in one block come to one. -/
theorem voidsPoured_voidsPoured (u : State) (b : Block) (second : Nat) (f : FilmFlag) {m : Nat} (n j k : Nat) (hm : 1 ≤ m) :
    (u.voidsPoured b second f m j).voidsPoured (b.poured f m) second f n k = u.voidsPoured b second f (m + n) k := by
  obtain ⟨hslot, hnumber, -, hfill, -⟩ := b.poured_frame f m
  have hcells := voidCells_add (activeLanes u) (b := b) (c := b.poured f m) (second := second) (second' := second) n u.lanesDone hm
    (fun i _ l => by rw [cellFrom, cellFrom, hslot, hfill, Nat.add_assoc])
  rw [State.voidsPoured, lanesDone_voidsPoured, State.voidsPoured, poured_poured hnumber (fun y => (y.poured_frame f m).2.1),
    State.voidsPoured, hcells]
  unfold voided
  rw [List.foldl_append]
  simp only [Block.poured_poured]
  exact congrArg (u.poured b _ _) (ScanInput.poured_poured ..)

/-- A run of void positions that the FILLING block has room for, with k more to come. -/
theorem Fills.fillVoids_run {u : State} {b : Block} (h : Fills u b) (f : FilmFlag) (second : Nat) {n : Nat} (k : Nat) (hn : 1 ≤ n)
    (hroom : b.fill + n ≤ 2048) (hquiet : NoTimeout u n) :
    fillVoids f (n + k) u = fillVoids f k (u.voidsPoured b second f n k) := by
  have hone : ∀ {v : State} {c : Block} (k : Nat), Fills v c → NoTimeout v 1 →
      fillVoids f (k + 1) v = fillVoids f k (v.voidsPoured c second f 1 k) := by
    intro v c k hv hq
    rw [fillVoids, hv.secures]
    exact congrArg (fillVoids f k) (hv.pour_one f second k hq)
  induction n, hn using Nat.le_induction generalizing k with
  | base => rw [Nat.add_comm]; exact hone k h hquiet
  | succ n hn ih =>
    rw [Nat.add_assoc, Nat.add_comm 1, ih (k + 1) (by omega) (hquiet.first (Nat.le_succ n)),
      hone k (h.voidsPoured second f (k + 1) (by omega)) (hquiet.later rfl rfl rfl rfl rfl),
      voidsPoured_voidsPoured u b second f 1 (k + 1) k hn]

/-! ## The outcomes of a fill -/

/-- A fill that the FILLING block has room for. -/
theorem Fills.fillVoids_fits {u : State} {b : Block} (h : Fills u b) (f : FilmFlag) (second : Nat) {d : Nat} (hd : 1 ≤ d)
    (hroom : b.fill + d ≤ 2048) (hquiet : NoTimeout u d) : fillVoids f d u = .done (u.voidsPoured b second f d 0) :=
  h.fillVoids_run f second 0 hd hroom hquiet

/-- A fill that fills its block and finds no slot FREE for the rest. -/
theorem Fills.fillVoids_stalls {u : State} {b : Block} (h : Fills u b) (f : FilmFlag) (second : Nat) {d : Nat}
    (hover : 2048 < b.fill + d) (hcount : u.window.counter < 2 ^ 28) (hfree : NoneFree u)
    (hquiet : NoTimeout u (2048 - b.fill)) :
    fillVoids f d u =
      .stalled (beginStall (u.voidsPoured b second f (2048 - b.fill) (d - (2048 - b.fill)))) 0 := by
  have hroom := h.room
  obtain ⟨k, rfl⟩ : ∃ k, d = 2048 - b.fill + (k + 1) := ⟨d - (2048 - b.fill) - 1, by omega⟩
  rw [h.fillVoids_run f second (k + 1) (by omega) (by omega) hquiet, Nat.add_sub_cancel_left]
  have hfull : ((b.poured f (2048 - b.fill))).state ≠ .filling := by
    rw [(b.poured_frame f _).2.2.2.2, if_pos (by omega)]
    decide
  have hnone : fillingBlock (u.voidsPoured b second f (2048 - b.fill) (k + 1)) = none := h.poured_none _ _ hfull
  rw [fillVoids, secure_stalls hnone hcount (hfree.congr (slots_voidsPoured ..))]

/-- The part once a fill has filled its block and gone over into the block secured in a slot. -/
def State.voidsOver (u : State) (b : Block) (slot : Nat) (f : FilmFlag) (d : Nat) : State :=
  { u with
    scan := u.scan.poured d 0
    tracker := { u.tracker with heldEvents := [], heldStart := none }
    window :=
      { u.window with
        memory := voided u.window.memory (voidCells (activeLanes u) b slot d u.lanesDone)
        blocks := u.window.blocks.map (fun y => if y.number = b.number then y.poured f (2048 - b.fill) else y) ++
          [(newBlock u slot).poured f (d - (2048 - b.fill))]
        counter := u.window.counter + 1 } }

/-- A fill that fills its block and goes over into the lowest FREE slot. -/
theorem Fills.fillVoids_crosses {u : State} {b : Block} (h : Fills u b) (f : FilmFlag) {slot d : Nat}
    (hover : 2048 < b.fill + d) (hd : d ≤ 2048) (hcount : u.window.counter < 2 ^ 28) (hfree : LowestFree u slot)
    (hquiet : NoTimeout u d) : fillVoids f d u = .done (u.voidsOver b slot f d) := by
  have hroom := h.room
  obtain ⟨k, rfl⟩ : ∃ k, d = 2048 - b.fill + (k + 1) := ⟨d - (2048 - b.fill) - 1, by omega⟩
  rw [h.fillVoids_run f slot (k + 1) (by omega) (by omega) (hquiet.first (Nat.le_add_right ..))]
  have hm : 1 ≤ 2048 - b.fill := by omega
  have hfull : b.fill + (2048 - b.fill) = 2048 := by omega
  rw [State.voidsOver, Nat.add_sub_cancel_left]
  generalize 2048 - b.fill = m at *
  have hfull' : (b.poured f m).state ≠ .filling := by
    rw [(b.poured_frame f _).2.2.2.2, if_pos hfull]
    decide
  set v := u.voidsPoured b slot f m (k + 1) with hv
  have hnone : fillingBlock v = none := h.poured_none _ _ hfull'
  have hslot : LowestFree v slot := hfree.congr (slots_voidsPoured ..)
  have holder : ∀ c ∈ v.window.blocks, c.number < v.window.counter := fun c hc => by
    obtain ⟨y, hy, rfl⟩ := List.mem_map.1 hc
    rw [apply_ite Block.number, (y.poured_frame f m).2.1, ite_self]
    exact h.older y hy
  have hnext : v.scan.next = firstPositionOf v v.window.counter := by
    refine Eq.trans ?_ h.follows.symm
    change u.scan.next + BitVec.ofNat 40 m = _
    rw [h.next, add_assoc, ← BitVec.ofNat_add, hfull]
  have hfills := fills_slotTaken slot hnone holder hnext
  have hsecure : secure v = .done (v.slotTaken slot) := secure_ready (.inr ⟨slot, hnone, hcount, hslot, rfl, rfl⟩)
  have henter : fillVoids f (k + 1) v = fillVoids f (k + 1) (v.slotTaken slot) := by
    rw [fillVoids, fillVoids, hsecure, hfills.secures]
  rw [henter, hfills.fillVoids_fits f 0 (Nat.le_add_left ..) (by change 0 + (k + 1) ≤ 2048; omega)
    (hquiet.later rfl rfl rfl rfl rfl)]
  refine congrArg Run.done ?_
  have hcells := voidCells_add (activeLanes u) (b := b) (c := newBlock u slot) (second := slot) (second' := 0) (k + 1) u.lanesDone
    hm (fun i hi l => by
      change (if 0 + i < 2048 then sampleAddress slot .original l (0 + i) else _) = _
      rw [cellFrom, if_pos (by omega), if_neg (by omega)]
      exact congrArg (sampleAddress slot .original l) (by omega))
  have hblocks : (v.slotTaken slot).window.blocks.map
        (fun y => if y.number = (newBlock v slot).number then y.poured f (k + 1) else y) =
      v.window.blocks ++ [(newBlock u slot).poured f (k + 1)] := by
    change (v.window.blocks ++ [newBlock v slot]).map _ = _
    rw [List.map_append, List.map_singleton, if_pos rfl]
    refine congrArg (· ++ [(newBlock u slot).poured f (k + 1)]) ?_
    exact (List.map_congr_left (fun c hc => if_neg (Nat.ne_of_lt (holder c hc)))).trans (List.map_id _)
  have hmemory : voided (v.slotTaken slot).window.memory
        (voidCells (activeLanes (v.slotTaken slot)) (newBlock v slot) 0 (k + 1) (v.slotTaken slot).lanesDone) =
      voided u.window.memory (voidCells (activeLanes u) b slot (m + (k + 1)) u.lanesDone) := by
    rw [hcells, show (v.slotTaken slot).lanesDone = 0 from lanesDone_voidsPoured u b slot f m (k + 1)]
    exact (List.foldl_append ..).symm
  have hscan : (v.slotTaken slot).scan.poured (k + 1) 0 = u.scan.poured (m + (k + 1)) 0 := ScanInput.poured_poured ..
  rw [State.voidsPoured, State.poured, hblocks, hmemory, hscan]
  rfl

end Sys2Proof.Machine
end

section
/-! The end of a packet by END or HEAD: the link fault, the fault fill, and the packet closed or the header held (O40). -/

namespace Sys2Proof.Machine

/-! ## A block made ready, in a part that differs in its input and its ports -/

/-- The part with another Scan Input and other ports. -/
def State.facing (s : State) (x : ScanInput) (q : PerPort PortState) : State := { s with scan := x, ports := q }

theorem BlockReady.facing {s u : State} {b : Block} (h : BlockReady s u b) (x : ScanInput) (q : PerPort PortState) :
    BlockReady (s.facing x q) (u.facing x q) b := by
  obtain ⟨hfill, rfl⟩ | ⟨slot, hnone, hcount, hfree, rfl, rfl⟩ := h
  · exact .inl ⟨hfill, rfl⟩
  · exact .inr ⟨slot, hnone, hcount, hfree, rfl, rfl⟩

/-- The block secured takes only the tracker events held. -/
theorem BlockReady.tracker {s u : State} {b : Block} (h : BlockReady s u b) :
    u.tracker.point = s.tracker.point ∧ u.tracker.lastMark = s.tracker.lastMark ∧
      u.tracker.slipPosition = s.tracker.slipPosition := by
  obtain ⟨-, rfl⟩ | ⟨slot, -, -, -, -, rfl⟩ := h <;> exact ⟨rfl, rfl, rfl⟩

theorem BlockReady.noTimeout {s u v : State} {b : Block} (h : BlockReady s u b) {n : Nat} (hquiet : NoTimeout s n)
    (htracker : v.tracker = u.tracker) (hpass : v.pass = u.pass) (hnext : v.scan.next = u.scan.next) : NoTimeout v n := by
  obtain ⟨hp, hscan, -⟩ := h.frame
  obtain ⟨hpoint, hmark, hslip⟩ := h.tracker
  intro hlock r hr i hi
  rw [htracker] at hlock hr
  rw [hmark, hslip] at hr
  rw [hnext, hscan, hpass, hp]
  exact hquiet (hpoint ▸ hlock) r hr i hi

/-- A fill begins where its block is ready. -/
theorem fillVoids_secured {s u : State} (f : FilmFlag) {n : Nat} (hn : 1 ≤ n) (h : secure s = .done u) (hu : secure u = .done u) :
    fillVoids f n s = fillVoids f n u := by
  obtain ⟨n, rfl⟩ := Nat.exists_eq_succ_of_ne_zero (Nat.ne_of_gt hn)
  rw [fillVoids, fillVoids, h, hu]

theorem settled_ports (t : State) (x : ScanInput) (p : Port) :
    ((settle (t.setScan x)).ports.get p).events = (t.ports.get p).events ∧
      ((settle (t.setScan x)).ports.get p).quiet = (t.ports.get p).quiet := by
  rw [settle_port]
  exact ⟨rfl, rfl⟩

/-! ## The entry -/

/-- Scan Input once END or HEAD has ended a packet. -/
def ScanInput.packetEnded (x : ScanInput) (e : FifoEntry) : ScanInput :=
  { x with
    context := none, packet := if e.tag = .head then .header else .none
    heldWord := if e.tag = .head then some e.word else x.heldWord }

/-- The event that an END or HEAD raises with d positions missing. -/
def endingLink (s : State) (e : FifoEntry) (d : Nat) : EventSet :=
  if s.scan.packet = .opened ∧ (e.tag = .head ∨ d ≠ 0) then Event.link.flag else 0#11

/-- The part as the fault fill of an END or HEAD begins. -/
def State.ending (s : State) (e : FifoEntry) (rest : List FifoEntry) (d : Nat) : State :=
  s.facing { s.scan with fifo := rest, pendingFill := d }
    (if s.scan.packet = .opened ∧ (e.tag = .head ∨ d ≠ 0) then (raise .link s).ports else s.ports)

theorem ending_port (s : State) (e : FifoEntry) (rest : List FifoEntry) (d : Nat) (p : Port) :
    (((s.ending e rest d).ports.get p).events = (s.ports.get p).events ||| endingLink s e d) ∧
      ((s.ending e rest d).ports.get p).quiet = (s.ports.get p).quiet := by
  change (((ite _ _ _ : PerPort PortState).get p).events = _) ∧ ((ite _ _ _ : PerPort PortState).get p).quiet = _
  unfold endingLink
  split
  · rw [raise_port]
    exact ⟨rfl, rfl⟩
  · exact ⟨(BitVec.or_zero).symm, rfl⟩

/-- END or HEAD taken in a packet: the fault fill, and then the packet's end. -/
theorem actEntry_ending {s : State} {e : FifoEntry} {x : PacketContext} (rest : List FifoEntry)
    (htag : e.tag = .close ∨ e.tag = .head) (hpacket : s.scan.packet = .opened ∨ s.scan.packet = .damaged)
    (hcontext : s.scan.context = some x) :
    let d := x.count - (s.scan.next - x.first).toNat
    actEntry e (s.popped rest) =
      (fillVoids .link d (s.ending e rest d)).andThen (fun t => .done (t.setScan (t.scan.packetEnded e))) := by
  intro d
  have hd : unassembled (s.popped rest) = d := by
    rw [unassembled, show (s.popped rest).scan.context = some x from hcontext]
    rfl
  have hhead : ∀ t : State, e.tag = .head → takeWordA e.word t = t.setScan (t.scan.packetEnded e) := fun t h => by
    rw [ScanInput.packetEnded, if_pos h, if_pos h]
    rfl
  have hclose : ∀ t : State, e.tag = .close → closePacket t = t.setScan (t.scan.packetEnded e) := fun t h => by
    rw [ScanInput.packetEnded, if_neg (h ▸ (by decide)), if_neg (h ▸ (by decide))]
    rfl
  have hending : ∀ v : State, v = s.ending e rest d → continueEntry e 0 v =
      (fillVoids .link d (s.ending e rest d)).andThen (fun t => .done (t.setScan (t.scan.packetEnded e))) := by
    rintro v rfl
    have hpacket' : (s.ending e rest d).scan.packet = s.scan.packet := rfl
    unfold continueEntry faultFill
    obtain h | h := htag
    · simp only [h, hclose _ h]
      rfl
    · obtain hp | hp := hpacket <;>
      · simp only [h, hpacket', hp, hhead _ h]
        rfl
  have hraised : ∀ v : State, (v = (s.popped rest).setFill d ∧ ¬(s.scan.packet = .opened ∧ (e.tag = .head ∨ d ≠ 0))) ∨
      (v = raise .link ((s.popped rest).setFill d) ∧ s.scan.packet = .opened ∧ (e.tag = .head ∨ d ≠ 0)) →
      v = s.ending e rest d := by
    rintro v (⟨rfl, hno⟩ | ⟨rfl, hyes⟩)
    · rw [State.ending, if_neg hno]
      rfl
    · rw [State.ending, if_pos hyes]
      rfl
  obtain h | h := htag <;> obtain hp | hp := hpacket <;> have hp' : (s.popped rest).scan.packet = _ := hp <;>
    simp only [actEntry, h, actEnd, actHead, hp', hd]
  · refine hending _ (hraised _ ?_)
    split
    · next h0 => exact .inl ⟨rfl, fun hy => hy.2.elim (h ▸ (by decide)) (· h0)⟩
    · next h0 => exact .inr ⟨rfl, hp, .inr h0⟩
  · exact hending _ (hraised _ (.inl ⟨rfl, fun hy => absurd (hp.symm.trans hy.1) (by decide)⟩))
  · exact hending _ (hraised _ (.inr ⟨rfl, hp, .inl h⟩))
  · exact hending _ (hraised _ (.inl ⟨rfl, fun hy => absurd (hp.symm.trans hy.1) (by decide)⟩))

/-! ## The outcomes -/

theorem ScanInput.poured_of_context {x : ScanInput} {c : PacketContext} (h : x.context = some c) (n k : Nat) :
    x.poured n k =
      { x with next := x.next + BitVec.ofNat 40 n, context := some { c with lanesWritten := 0 }, pendingFill := k } := by
  rw [ScanInput.poured, h]
  rfl

/-- Settles O40. -/
theorem endClosesACompletePacket : Obligations.EndClosesACompletePacket := by
  intro s e rest x c htake hcommand hloss hpacket hcontext d ended stalled link frame
  have htag : e.tag = .close ∨ e.tag = .head := hcommand.imp And.left And.left
  have hc : c = Tag.taker e.tag := by
    obtain ⟨h, rfl⟩ | ⟨h, rfl⟩ := hcommand <;> rw [h] <;> rfl
  have hact := actEntry_ending rest htag hpacket hcontext
  change actEntry e (s.popped rest) = (fillVoids .link d (s.ending e rest d)).andThen _ at hact
  have hexec := exec_taken htake
  rw [← hc, hact] at hexec
  have hlink : 1 ≤ d → endingLink s e d = link := fun hd => by
    unfold endingLink
    exact if_congr (and_iff_left (.inr (Nat.ne_of_gt hd))) rfl rfl
  -- a fill that comes to its end
  have hdone : ∀ v : State, fillVoids .link d (s.ending e rest d) = .done v →
      exec c s = .next (settle (v.setScan { v.scan.packetEnded e with suspended := none })) := fun v hv => by
    rw [hexec, hv]
    simp only [Run.andThen, finishEntry, hloss, if_false, Bool.false_eq_true]
    rfl
  -- a fill that stalls
  have hstalls : ∀ v : State, fillVoids .link d (s.ending e rest d) = .stalled (beginStall v) 0 →
      exec c s = .next (settle ((raise .winfull v).setScan
        { v.scan with stall := ⟨true, true⟩, suspended := some ⟨e, 0⟩ })) := fun v hv => by
    rw [hexec, hv]
    rfl
  have hframe : ∀ (v : State) (y : ScanInput), 1 ≤ d → v.ports = (s.ending e rest d).ports → v.pass = s.pass →
      v.catalogue = s.catalogue → v.engines = s.engines → v.rights = s.rights → v.pending = s.pending →
      frame (settle (v.setScan y)) 0#11 ∧ frame (settle ((raise .winfull v).setScan y)) Event.winfull.flag := by
    intro v y hd hports hpass hcat hengines hrights hpending
    have hport := ending_port s e rest d
    rw [← hports, hlink hd] at hport
    refine ⟨⟨fun p => ?_, hpass, hcat, hengines, hrights, hpending, fun p => ?_⟩,
      ⟨fun p => ?_, hpass, hcat, hengines, hrights, hpending, fun p => ?_⟩⟩
    · exact (settled_ports v y p).1.trans ((hport p).1.trans BitVec.or_zero.symm)
    · exact (settled_ports v y p).2.trans (hport p).2
    · refine (settled_ports _ y p).1.trans ?_
      rw [raise_port]
      exact congrArg (· ||| Event.winfull.flag) (hport p).1
    · exact (settled_ports _ y p).2.trans ((raise_quiet ..).trans (hport p).2)
  refine ⟨fun hd => ?_, fun hd hnone hcount hfree => ?_, ?_⟩
  · have hzero := hdone (s.ending e rest d) (by rw [hd, fillVoids])
    rw [hzero]
    have hcond : (s.scan.packet = .opened ∧ (e.tag = .head ∨ d ≠ 0)) ↔ e.tag = .head ∧ s.scan.packet = .opened := by
      rw [hd]
      tauto
    rw [State.ending, if_congr hcond rfl rfl]
    split <;> (rw [hd]; rfl)
  · have hstall : fillVoids .link d (s.ending e rest d) = .stalled (beginStall (s.ending e rest d)) 0 := by
      obtain ⟨k, hk⟩ := Nat.exists_eq_succ_of_ne_zero (Nat.ne_of_gt hd)
      rw [hk, fillVoids, secure_stalls (s := s.ending e rest (k + 1)) hnone hcount hfree]
    exact ⟨_, hstalls _ hstall, (hframe _ _ hd rfl rfl rfl rfl rfl rfl).2, rfl, rfl, rfl⟩
  · intro u b hd hmax hrun hw hlaw hwf hready m blocks
    have hready' := hready.facing { s.scan with fifo := rest, pendingFill := d } (s.ending e rest d).ports
    have hfills := hready.fills hw hlaw htake.2.1 hrun
    obtain ⟨upass, uscan, ucat, uengines, uports, urights, upending, umemory⟩ := hready.frame
    set v := u.facing { s.scan with fifo := rest, pendingFill := d } (s.ending e rest d).ports with hv
    have hvfills : Fills v b := hfills.congr rfl rfl rfl (show s.scan.next = u.scan.next from congrArg ScanInput.next uscan.symm)
    have henter : fillVoids .link d (s.ending e rest d) = fillVoids .link d v :=
      fillVoids_secured .link hd (secure_ready hready') hvfills.secures
    have hquiet : ∀ {n}, NoTimeout s n → NoTimeout v n := fun hq =>
      hready.noTimeout hq rfl rfl (show s.scan.next = u.scan.next from congrArg ScanInput.next uscan.symm)
    have hlanes : activeLanes v = activeLanes s := congrArg (fun y : PassControl => lanesOf y.laneMask) upass
    have hskip : v.lanesDone = x.lanesWritten := by
      change ((s.scan.context.map _).getD 0) = _
      rw [hcontext]
      rfl
    have hvoids : ∀ {t : State} {second n : Nat},
        t.window.memory = voided v.window.memory (voidCells (activeLanes v) b second n v.lanesDone) →
        VoidsWritten s t b second n x.lanesWritten := fun ht => by
      rw [hlanes, hskip, show v.window.memory = s.window.memory from umemory] at ht
      exact voidsWritten_of hwf ht
    refine ⟨fun hfit hq => ?_, fun slot hover hcount hfree hq => ?_, fun hover hcount hfree hq => ?_⟩
    · have hm : m = d := Nat.min_eq_left (by omega)
      refine ⟨_, hdone _ (henter.trans (hvfills.fillVoids_fits .link 0 hd hfit (hquiet hq))), ?_, ?_, rfl, hvoids rfl,
        (hframe (v.voidsPoured b 0 .link d 0) _ hd rfl upass ucat uengines urights upending).1⟩
      · rfl
      · simp only [blocks, hm]
        rfl
    · have hm : m = 2048 - b.fill := Nat.min_eq_right (by omega)
      refine ⟨_, hdone _ (henter.trans (hvfills.fillVoids_crosses .link hover hmax hcount hfree (hquiet hq))), ?_, ?_, rfl,
        hvoids rfl, (hframe (v.voidsOver b slot .link d) _ hd rfl upass ucat uengines urights upending).1⟩
      · rfl
      · simp only [blocks, hm]
        rfl
    · have hm : m = 2048 - b.fill := Nat.min_eq_right (by omega)
      rw [hm] at hq
      refine ⟨_, hstalls _ (henter.trans (hvfills.fillVoids_stalls .link 0 hover hcount hfree (hquiet hq))), ?_, ?_, rfl, ?_,
        (hframe (v.voidsPoured b 0 .link (2048 - b.fill) (d - (2048 - b.fill))) _ hd rfl upass ucat uengines urights upending).2⟩
      · rw [hm]
        have hscan := ScanInput.poured_of_context (x := v.scan) hcontext (2048 - b.fill) (d - (2048 - b.fill))
        have hset : ∀ r : Bool, ({ v.scan.poured (2048 - b.fill) (d - (2048 - b.fill)) with
            ready := r, stall := ⟨true, true⟩, suspended := some ⟨e, 0⟩ } : ScanInput) = _ := fun r => by rw [hscan]
        exact hset _
      · simp only [blocks, hm]
        rfl
      · rw [hm]
        exact hvoids rfl

end Sys2Proof.Machine
end

section
/-! A gap: the entry listed or the repairs counted as unlisted, the void positions inserted, and the packet opened (O34). -/

namespace Sys2Proof.Machine

/-! ## Unlisted repairs of a block -/

theorem foldl_mapRecord (f : LaneRecord → LaneRecord) {ls : List Lane} (hls : ls.Nodup) (b : Block) :
    ls.foldl (fun c l => c.mapRecord l f) b =
      { b with lanes := b.lanes.mapIdx (fun l r => if l ∈ ls then r.map f else r) } := by
  induction ls generalizing b with
  | nil =>
    refine congrArg (fun x => ({ b with lanes := x } : Block)) (PerLane.ext_get (fun l => ?_))
    rw [PerLane.get_mapIdx, if_neg (List.not_mem_nil)]
  | cons m ls ih =>
    obtain ⟨hm, hls⟩ := List.nodup_cons.1 hls
    rw [List.foldl_cons, ih hls]
    refine congrArg (fun x => ({ b with lanes := x } : Block)) (PerLane.ext_get (fun l => ?_))
    simp only [PerLane.get_mapIdx, Block.mapRecord, PerLane.get_set, List.mem_cons]
    by_cases hl : l = m
    · subst hl
      rw [if_neg hm, if_pos rfl, if_pos (.inl rfl)]
    · simp only [hl, if_false, false_or]

/-- The records of a block are those of the active lanes. -/
def Block.lanesActive (s : State) (b : Block) : Prop := ∀ l, (b.lanes.get l).isSome = s.pass.laneMask.getLsbD l.toNat

theorem BlockReady.lanesActive {s u : State} {b : Block} (h : BlockReady s u b) (hw : WindowLegal s) : b.lanesActive u := by
  obtain ⟨hb, rfl⟩ | ⟨slot, -, -, -, rfl, rfl⟩ := h
  · exact fun l => (hw.1 b (mem_of_fillingBlock hb).1).2.2.2.2.2 l (Lane.mem_all l)
  · rw [newBlock_eq]
    exact fun l => isSome_freshRecords _ l

/-- A block with one unlisted repair more in each of its records, unless the catalogue has room. -/
def Block.gapListed (room : Bool) (b : Block) : Block :=
  { b with lanes := if room then b.lanes else b.lanes.mapIdx (fun _ r => r.map LaneRecord.oneUnlisted) }

theorem countUnlisted_eq {s : State} {b : Block} (h : b.lanesActive s) :
    (activeLanes s).foldl (fun c l => c.mapRecord l LaneRecord.countUnlisted) b = b.gapListed false := by
  have hnodup : (activeLanes s).Nodup := List.Nodup.filter _ (by decide : Lane.all.Nodup)
  rw [foldl_mapRecord _ hnodup, Block.gapListed, if_neg (by decide)]
  refine congrArg (fun x => ({ b with lanes := x } : Block)) (PerLane.ext_get (fun l => ?_))
  rw [PerLane.get_mapIdx, PerLane.get_mapIdx]
  split
  · rfl
  · next hl =>
    have hnone : (b.lanes.get l).isSome = false := by
      rw [h l]
      exact Bool.not_eq_true _ ▸ mt mem_activeLanes.2 hl
    rw [Option.isSome_eq_false_iff, Option.isNone_iff_eq_none] at hnone
    rw [hnone]
    rfl

/-! ## The gap listed -/

/-- The entry of a gap of d positions. -/
def gapEntry (s : State) (d : Nat) : Entry :=
  { number := 0, kind := .gap, lane := none, start := s.scan.next, span := some d, peak := none
    decision := some (if ∀ l ∈ activeLanes s, d ≤ (s.engines.get l).settings.maxspan then .repair else .hold)
    decidedBy := .default, reported := none, fixed := false }

theorem gapDecision_eq (s : State) (d : Nat) :
    gapDecision s d = if ∀ l ∈ activeLanes s, d ≤ (s.engines.get l).settings.maxspan then .repair else .hold := by
  rw [gapDecision]
  simp only [List.all_eq_true, decide_eq_true_eq]

/-- A gap listed, or counted as unlisted where the catalogue is full. -/
theorem listGap_eq {u : State} {b : Block} (h : Fills u b) (hlanes : b.lanesActive u) (d : Nat) :
    listGap d u =
      if u.catalogue.entries.length < 2048 then listEntry (gapEntry u d) u
      else raise .unlisted (u.poured b (Block.gapListed false) u.window.memory u.scan) := by
  unfold listGap
  by_cases hroom : u.catalogue.entries.length < 2048
  · rw [show catalogueFull u = false from decide_eq_false (Nat.not_le.2 hroom), if_neg (by decide), if_pos hroom, gapDecision_eq]
    rfl
  · rw [show catalogueFull u = true from decide_eq_true (Nat.not_lt.1 hroom), if_pos rfl, if_neg hroom]
    have hblocks : u.window.blocks.map (fun c => if c.state = .filling then
          (activeLanes u).foldl (fun c l => c.mapRecord l LaneRecord.countUnlisted) c else c) =
        u.window.blocks.map (fun y => if y.number = b.number then y.gapListed false else y) := by
      refine List.map_congr_left (fun y hy => if_ctx_congr (h.filling_iff hy) (fun hn => ?_) (fun _ => rfl))
      rw [h.named y hy hn, countUnlisted_eq hlanes]
    exact congrArg (fun bs => raise .unlisted (u.setBlocks bs)) hblocks

/-- What the listing of a gap leaves as it was, and what it does to the blocks. -/
theorem listGap_frame {u : State} {b : Block} (h : Fills u b) (hlanes : b.lanesActive u) (d : Nat) :
    (listGap d u).pending = u.pending ∧ (listGap d u).pass = u.pass ∧ (listGap d u).tracker = u.tracker ∧
      (listGap d u).engines = u.engines ∧ (listGap d u).rights = u.rights ∧ portsQuiet u (listGap d u) ∧
      (listGap d u).window =
        (u.poured b (Block.gapListed (decide (u.catalogue.entries.length < 2048))) u.window.memory u.scan).window := by
  rw [listGap_eq h hlanes]
  by_cases hroom : u.catalogue.entries.length < 2048
  · obtain ⟨fpending, fpass, -, ftracker, fwindow, fengines, frights, fquiet⟩ := listedIfRoom_frame (gapEntry u d) u
    rw [listedIfRoom, if_pos hroom] at fpending fpass ftracker fwindow fengines frights fquiet
    rw [if_pos hroom, decide_eq_true hroom]
    refine ⟨fpending, fpass, ftracker, fengines, frights, fquiet, fwindow.trans ?_⟩
    have hblocks : u.window.blocks.map (fun y => if y.number = b.number then y.gapListed true else y) = u.window.blocks :=
      (List.map_congr_left (fun y _ => ite_self _)).trans (List.map_id _)
    exact congrArg (fun bs => ({ u.window with blocks := bs } : Window)) hblocks.symm
  · rw [if_neg hroom, decide_eq_false hroom]
    exact ⟨rfl, rfl, rfl, rfl, rfl, fun p => raise_quiet .., rfl⟩

/-- The listing of a gap in the words of the statement. -/
theorem listGap_listed {u : State} {b : Block} (h : Fills u b) (hlanes : b.lanesActive u) (d : Nat) :
    (u.catalogue.entries.length < 2048 → EntryAdded u (listGap d u) (gapEntry u d)) ∧
      (¬u.catalogue.entries.length < 2048 → EntryUnlisted u (listGap d u)) := by
  rw [listGap_eq h hlanes]
  refine ⟨fun hroom => ?_, fun hfull => ?_⟩
  · rw [if_pos hroom]
    exact entryAdded_of_listed _ rfl (fun _ => rfl)
  · rw [if_neg hfull]
    refine ⟨rfl, fun p => ?_⟩
    rw [raise_port]
    rfl

/-! ## The judgement -/

theorem judgeHeader_gap {a w : Word32} {u : State} {d : Nat} (hd : 1 ≤ d) (hmax : d ≤ 2048)
    (hword : w = u.scan.next.setWidth 32 + BitVec.ofNat 32 d) :
    judgeHeader a w u = (fillVoids .gap d ((listGap d u).setFill d)).andThen (fun t => .done (openPacket a t)) := by
  have hdist : (w - u.scan.next.setWidth 32).toInt = d := by
    rw [hword, add_sub_cancel_left, BitVec.toInt_ofNat', Int.bmod_eq_of_le] <;> omega
  unfold judgeHeader
  dsimp only
  rw [hdist, if_neg (by omega), if_pos ⟨by omega, by change (d : Int) ≤ 2048; omega⟩, Int.toNat_natCast]

/-! ## The outcomes -/

theorem ScanInput.poured_of_none {x : ScanInput} (h : x.context = none) (n k : Nat) :
    x.poured n k = { x with next := x.next + BitVec.ofNat 40 n, pendingFill := k } := by
  rw [ScanInput.poured, h, Option.map_none, ← h]

/-- The part w as the fill of a gap begins: the gap listed or counted as unlisted, in the block b that the part u has
ready. -/
structure GapBegun (s u : State) (b : Block) (rest : List FifoEntry) (d : Nat) (w : State) : Prop where
  pending : w.pending = s.pending
  pass : w.pass = s.pass
  tracker : w.tracker = u.tracker
  engines : w.engines = s.engines
  rights : w.rights = s.rights
  quiet : portsQuiet s w
  scan : w.scan = { s.scan with fifo := rest, pendingFill := d }
  window : w.window =
    { u.window with
      blocks := u.window.blocks.map (fun y =>
        if y.number = b.number then y.gapListed (decide (s.catalogue.entries.length < 2048)) else y) }
  added : s.catalogue.entries.length < 2048 → EntryAdded s w (gapEntry s d)
  unlisted : ¬s.catalogue.entries.length < 2048 → EntryUnlisted s w
  fills : Fills w (b.gapListed (decide (s.catalogue.entries.length < 2048)))

/-- Word B of a header that reports d positions ahead: the gap listed, the fill, and the packet opened. -/
theorem actEntry_gap {s u : State} {e : FifoEntry} {rest : List FifoEntry} {a : Word32} {b : Block} {d : Nat}
    (htake : s.canTake e rest) (hhead : e.tag = .head) (hpacket : s.scan.packet = .header) (hheld : s.scan.heldWord = some a)
    (hvalid : headerValid s a = true) (hrun : s.pass.runOutEnded = false) (hw : WindowLegal s) (hlaw : NextPositionLaw s)
    (hready : BlockReady s u b) (hd : 1 ≤ d) (hmax : d ≤ 2048)
    (hword : e.word = s.scan.next.setWidth 32 + BitVec.ofNat 32 d) :
    ∃ w, GapBegun s u b rest d w ∧
      actEntry e (s.popped rest) = (fillVoids .gap d w).andThen (fun t => .done (openPacket a t)) := by
  obtain ⟨upass, uscan, ucat, uengines, uports, urights, upending, -⟩ := hready.frame
  have hfills : Fills (u.setScan { s.scan with fifo := rest }) b :=
    (hready.fills hw hlaw htake.2.1 hrun).congr rfl rfl rfl (show s.scan.next = _ from congrArg ScanInput.next uscan.symm)
  have hlanes : b.lanesActive (u.setScan { s.scan with fifo := rest }) := hready.lanesActive hw
  have hact := (actHead_header hhead (show (s.popped rest).scan.packet = .header from hpacket)
    (show (s.popped rest).scan.heldWord = some a from hheld) hvalid (secure_ready (hready.popped rest))).trans
    (judgeHeader_gap (u := u.setScan { s.scan with fifo := rest }) hd hmax hword)
  obtain ⟨fpending, fpass, ftracker, fengines, frights, fquiet, fwindow⟩ := listGap_frame hfills hlanes d
  obtain ⟨hlisted, hunlisted⟩ := listGap_listed hfills hlanes d
  have fscan := listGap_scan d (u.setScan { s.scan with fifo := rest })
  have hgap : gapEntry (u.setScan { s.scan with fifo := rest }) d = gapEntry s d := by
    unfold gapEntry activeLanes
    rw [show (u.setScan { s.scan with fifo := rest }).pass = s.pass from upass,
      show (u.setScan { s.scan with fifo := rest }).engines = s.engines from uengines]
    rfl
  have hlength : (u.setScan { s.scan with fifo := rest }).catalogue.entries.length = s.catalogue.entries.length :=
    congrArg (fun c : Catalogue => c.entries.length) ucat
  rw [hgap, hlength] at hlisted
  rw [hlength] at hunlisted fwindow
  generalize listGap d (u.setScan { s.scan with fifo := rest }) = v at *
  refine ⟨v.setFill d, ⟨fpending.trans upending, fpass.trans upass, ftracker, fengines.trans uengines, frights.trans urights,
    fun p => (fquiet p).trans (congrArg (fun q : PerPort PortState => (q.get p).quiet) uports), ?_, fwindow,
    fun hroom => ?_, fun hfull => ?_, ?_⟩, hact⟩
  · exact congrArg (fun x : ScanInput => { x with pendingFill := d }) fscan
  · exact (hlisted hroom).congr ucat uports rfl (fun _ => rfl)
  · obtain ⟨hcat, hev⟩ := hunlisted hfull
    exact ⟨hcat.trans ucat, fun p => (hev p).trans (congrArg (fun q : PerPort PortState => (q.get p).events ||| _) uports)⟩
  · refine (hfills.poured (n := 0) (g := Block.gapListed (decide (s.catalogue.entries.length < 2048))) u.window.memory
      (x := { s.scan with fifo := rest }) (fun _ => rfl) rfl hfills.state rfl hfills.room (BitVec.add_zero _).symm).congr
      (congrArg Window.blocks fwindow) (congrArg Window.counter fwindow) fpass
      (show v.scan.next = _ from congrArg ScanInput.next fscan)

/-- Settles O34. -/
theorem gapInsertsVoidPositions : Obligations.GapInsertsVoidPositions := by
  intro s u e rest a b d htake hhead hloss hpacket hheld hcontext hvalid hrun hw hlaw hwf hready hd hmax hword room m gap blocks
    frame opened
  obtain ⟨w, hbegun, hact⟩ := actEntry_gap htake hhead hpacket hheld hvalid hrun hw hlaw hready hd hmax hword
  obtain ⟨wpending, wpass, wtracker, wengines, wrights, wquiet, wscan, wwindow, hadded, hunlisted, hfills⟩ := hbegun
  have hexec := exec_taken htake
  rw [hact, hhead] at hexec
  change exec .headTaken s = _ at hexec
  set c := b.gapListed (decide (s.catalogue.entries.length < 2048)) with hc
  have hcounter : w.window.counter = u.window.counter := by rw [wwindow]
  have hslots : w.window.blocks.map Block.slot = u.window.blocks.map Block.slot := by
    rw [congrArg Window.blocks wwindow, List.map_map]
    exact List.map_congr_left (fun y _ => apply_ite Block.slot _ _ _ |>.trans (ite_self _))
  have hquiet : ∀ {n}, NoTimeout s n → NoTimeout w n := fun hq =>
    hready.noTimeout hq wtracker (wpass.trans hready.frame.1.symm)
      ((congrArg ScanInput.next wscan).trans (show s.scan.next = _ from congrArg ScanInput.next hready.frame.2.1.symm))
  have hmemory : w.window.memory = s.window.memory :=
    (congrArg Window.memory wwindow).trans hready.frame.2.2.2.2.2.2.2
  have hlanes : activeLanes w = activeLanes s := congrArg (fun y : PassControl => lanesOf y.laneMask) wpass
  have hnone : w.scan.context = none := (congrArg ScanInput.context wscan).trans hcontext
  have hvoids : ∀ {t : State} {second n : Nat},
      t.window.memory = voided w.window.memory (voidCells (activeLanes w) c second n w.lanesDone) →
      VoidsWritten s t b second n 0 := fun ht => by
    rw [hlanes, hmemory, show w.lanesDone = 0 by rw [State.lanesDone, hnone]; rfl] at ht
    exact voidsWritten_of (b := c) hwf ht
  have hblocks : ∀ n, w.window.blocks.map (fun y => if y.number = c.number then y.poured .gap n else y) =
      u.window.blocks.map (fun y => if y.number = b.number then
        { y.grown n with
          filmGap := true
          lanes :=
            if s.catalogue.entries.length < 2048 then y.lanes
            else y.lanes.mapIdx (fun _ r => r.map LaneRecord.oneUnlisted) }
        else y) := fun n => by
    rw [congrArg Window.blocks wwindow, List.map_map]
    refine List.map_congr_left (fun y _ => ?_)
    by_cases hy : y.number = b.number
    · rw [Function.comp_apply, if_pos hy, if_pos hy, if_pos (show (y.gapListed _).number = c.number from hy)]
      by_cases hroom : s.catalogue.entries.length < 2048
      · rw [decide_eq_true hroom, if_pos hroom]
        rfl
      · rw [decide_eq_false hroom, if_neg hroom]
        rfl
    · rw [Function.comp_apply, if_neg hy, if_neg hy, if_neg (show ¬y.number = c.number from hy)]
  have hscan : ∀ n k, w.scan.poured n k =
      { s.scan with fifo := rest, next := s.scan.next + BitVec.ofNat 40 n, pendingFill := k } := fun n k => by
    rw [ScanInput.poured_of_none hnone, wscan]
  have hdone : ∀ v : State, fillVoids .gap d w = .done v → v.pass = w.pass → v.scan = w.scan.poured d 0 →
      exec .headTaken s = .next (settle (v.setScan
        { s.scan with
          fifo := rest, suspended := none, packet := .opened, heldWord := none, pendingFill := 0
          next := s.scan.next + BitVec.ofNat 40 d, context := some (packetAt s a (s.scan.next + BitVec.ofNat 40 d)) })) := by
    intro v hv hpass hvscan
    rw [hexec, hv]
    simp only [Run.andThen, finishEntry, hloss, if_false, Bool.false_eq_true]
    rw [openPacket_eq, packetAt_congr (hpass.trans wpass), hvscan, hscan]
    rfl
  have hbounds : w.window.finalBlock = s.window.finalBlock ∧ w.window.reviewHold = s.window.reviewHold ∧
      w.window.releaseMark = s.window.releaseMark := by
    rw [wwindow]
    obtain ⟨-, rfl⟩ | ⟨slot, -, -, -, -, rfl⟩ := hready <;> exact ⟨rfl, rfl, rfl⟩
  have hframe : ∀ (v : State) (y : ScanInput), portsQuiet w v → v.pass = w.pass → v.engines = w.engines →
      v.rights = w.rights → v.pending = w.pending →
      v.window = { w.window with memory := v.window.memory, blocks := v.window.blocks, counter := v.window.counter } →
      frame (settle (v.setScan y)) := by
    intro v y vquiet vpass vengines vrights vpending vwindow
    obtain ⟨hfinal, hhold, hmark⟩ := hbounds
    exact ⟨vpass.trans wpass, vengines.trans wengines, vrights.trans wrights, vpending.trans wpending,
      fun p => (settled_ports v y p).2.trans ((vquiet p).trans (wquiet p)), (congrArg Window.finalBlock vwindow).trans hfinal,
      (congrArg Window.reviewHold vwindow).trans hhold, (congrArg Window.releaseMark vwindow).trans hmark⟩
  have hentry : ∀ (v : State) (y : ScanInput), v.ports = w.ports → v.catalogue = w.catalogue →
      (room → EntryAdded s (settle (v.setScan y)) gap) ∧ (¬room → EntryUnlisted s (settle (v.setScan y))) := by
    intro v y vports vcat
    have vevents : ∀ p, ((settle (v.setScan y)).ports.get p).events = (w.ports.get p).events := fun p =>
      (settled_ports v y p).1.trans (congrArg (fun q : PerPort PortState => (q.get p).events) vports)
    refine ⟨fun hroom => (hadded hroom).congr rfl rfl vcat vevents, fun hfull => ?_⟩
    obtain ⟨hcat, hev⟩ := hunlisted hfull
    exact ⟨vcat.trans hcat, fun p => (vevents p).trans (hev p)⟩
  refine ⟨fun hfit hq => ?_, fun slot hover hcount hfree hq => ?_, fun hover hcount hfree hq => ?_⟩
  · have hm : m = d := Nat.min_eq_left (by omega)
    refine ⟨_, hdone (w.voidsPoured c 0 .gap d 0) (hfills.fillVoids_fits .gap 0 hd hfit (hquiet hq)) rfl rfl,
      ⟨rfl, hentry (w.voidsPoured c 0 .gap d 0) _ rfl rfl⟩, ?_, hcounter, wtracker, hvoids rfl,
      hframe (w.voidsPoured c 0 .gap d 0) _ (fun _ => rfl) rfl rfl rfl rfl rfl⟩
    simp only [blocks, hm]
    exact hblocks d
  · have hm : m = 2048 - b.fill := Nat.min_eq_right (by omega)
    have hcount' : w.window.counter < 2 ^ 28 := hcounter.symm ▸ hcount
    refine ⟨_, hdone (w.voidsOver c slot .gap d)
      (hfills.fillVoids_crosses .gap hover hmax hcount' ?_ (hquiet hq)) rfl rfl,
      ⟨rfl, hentry (w.voidsOver c slot .gap d) _ rfl rfl⟩, ?_, ?_, ?_, hvoids rfl,
      hframe (w.voidsOver c slot .gap d) _ (fun _ => rfl) rfl rfl rfl rfl rfl⟩
    · exact hfree.congr hslots
    · simp only [blocks, hm]
      have hnew : newBlock w slot = newBlock u slot := newBlock_congr slot (wpass.trans hready.frame.1.symm) wtracker hcounter
      refine (congrArg₂ (· ++ [·]) (hblocks (2048 - b.fill)) (congrArg (Block.poured .gap (d - (2048 - b.fill))) hnew) :)
    · exact congrArg (· + 1) hcounter
    · exact congrArg (fun x : Tracker => ({ x with heldEvents := [], heldStart := none } : Tracker)) wtracker
  · have hm : m = 2048 - b.fill := Nat.min_eq_right (by omega)
    have hcount' : w.window.counter < 2 ^ 28 := hcounter.symm ▸ hcount
    rw [hm] at hq
    have hexec' : exec .headTaken s = .next (settle ((raise .winfull (w.voidsPoured c 0 .gap (2048 - b.fill) (d - (2048 - b.fill)))).setScan
        { w.scan.poured (2048 - b.fill) (d - (2048 - b.fill)) with stall := ⟨true, true⟩, suspended := some ⟨e, 0⟩ })) := by
      rw [hexec, hfills.fillVoids_stalls .gap 0 hover hcount' (hfree.congr hslots) (hquiet hq)]
      rfl
    rw [hscan] at hexec'
    obtain ⟨hyes, hno⟩ := hentry (w.voidsPoured c 0 .gap (2048 - b.fill) (d - (2048 - b.fill))) w.scan rfl rfl
    refine ⟨_, hexec', ?_, raisedEverywhere_settle (raise_sets _ _) _, fun hroom => ?_, fun hfull => ?_, ?_, hcounter, wtracker, ?_,
      hframe (raise .winfull (w.voidsPoured c 0 .gap (2048 - b.fill) (d - (2048 - b.fill)))) _ (fun p => raise_quiet ..) rfl rfl rfl
        rfl rfl⟩
    · rw [hm]
      rfl
    · obtain ⟨hperm, hnumber, hcursors, -⟩ := hyes hroom
      exact ⟨hperm, hnumber, hcursors⟩
    · obtain ⟨hcat, hev⟩ := hunlisted hfull
      refine ⟨hcat, raisedEverywhere_settle (raisedEverywhere_raise (fun p => ?_) _) _⟩
      change (w.ports.get p).events &&& _ = _
      rw [hev p]
      have hset := raise_sets .unlisted s p
      rwa [raise_port] at hset
    · simp only [blocks, hm]
      exact hblocks _
    · rw [hm]
      exact hvoids rfl

end Sys2Proof.Machine
end
